-- ==== Sys2Proof/Word.lean ====
section
/-! DEFINITION. The word types of WMFD (00_scope.md R9: bit 0 is the least significant bit). -/

namespace Sys2Proof

/-- A byte of the stream, of the payload space PAY or of the sample (00_scope.md R7, BYTE_WIDTH = 8). -/
abbrev Byte := BitVec 8

/-- An operation word of the input port: 10 bits, kind in bits 9..8, data byte in bits 7..0
(30_encoding.md R75). -/
abbrev OpWord := BitVec 10

/-- A duty register: 7 bits unsigned (30_encoding.md R81). -/
abbrev Duty := BitVec 7

/-- The count of accumulated payload bytes: 3 bits (10_state.md R20, R23). -/
abbrev Position := BitVec 3

end Sys2Proof
end

