-- ==== Sys2Proof/Config.lean ====
section
/-! DEFINITION. The constants the source fixes (00_scope.md R7) and the named parameters it leaves open
(00_scope.md R8), with the values WMFD takes. -/

namespace Sys2Proof.Config

/-! ### Constants of 00_scope.md R7 -/

/-- MARKER_0: the first byte of the start marker. -/
abbrev marker0 : Byte := 0x00#8
/-- MARKER_1: the second byte of the start marker. -/
abbrev marker1 : Byte := 0xFF#8
/-- PAYLOAD_LEN: the bytes of a payload. -/
abbrev payloadLen : Nat := 6
/-- FRAME_LEN: 2 marker bytes, 6 payload bytes and the checksum. -/
abbrev frameLen : Nat := 9
/-- CHECKSUM_MOD. -/
abbrev checksumMod : Nat := 256
/-- X_INDEX: the payload byte that is x. -/
abbrev xIndex : Nat := 0
/-- Y_INDEX: the payload byte that is y. -/
abbrev yIndex : Nat := 1
/-- CENTER: the raw axis value that means centred. -/
abbrev center : Int := 128
/-- GAIN_Y: 1.2, the exact rational 6/5. -/
abbrev gainY : ℚ := 6 / 5
/-- GAIN_X: 0.75, the exact rational 3/4. -/
abbrev gainX : ℚ := 3 / 4
/-- DUTY_MAX: the largest duty percentage. -/
abbrev dutyMax : Nat := 99
/-- MOTORS: the number of motors, A and B. -/
abbrev motors : Nat := 2

/-! ### Parameters of 00_scope.md R8 -/

/-- TRAILER_MARKER_MODE: what an RXB does whose byte is both the trailer and a marker's second byte
(40_decoder.md R102, R108). -/
inductive TrailerMarkerMode where
  /-- The trailer is validated, then a new frame starts (WMFD's value). -/
  | validateThenRestart
  /-- Validation is skipped; a new frame starts. -/
  | restartOnly
  /-- The trailer is validated; no frame starts. -/
  | validateOnly
deriving DecidableEq, Repr

/-- SPEED_QUANT: how the rational speed becomes a direction and a magnitude (41_mixer.md R136). -/
inductive SpeedQuant where
  /-- The mixed speed is truncated toward zero once (WMFD's value). -/
  | truncFinal
  /-- Each adjusted axis is truncated toward zero, then mixed. -/
  | truncAxes
  /-- The sign of the exact speed, and the floor of its magnitude. -/
  | exactSign
deriving DecidableEq, Repr

/-- INVALID_POLICY: what the outputs do while the sample is not valid; the source gives no other value than
hold (41_mixer.md R132). -/
inductive InvalidPolicy where
  /-- The outputs keep their values. -/
  | hold
deriving DecidableEq, Repr

/-- The parameters that a rule of the spec reads (00_scope.md R8). -/
structure Params where
  /-- ATOMIC_PUBLISH: whether publish and snapshot are indivisible (20_memory.md R54, R59). -/
  atomicPublish : Bool
  /-- TRAILER_MARKER_MODE. -/
  trailerMarkerMode : TrailerMarkerMode
  /-- SPEED_QUANT. -/
  speedQuant : SpeedQuant
  /-- INVALID_POLICY. -/
  invalidPolicy : InvalidPolicy
  /-- PREV_RESET: what `prev_byte` holds after reset (70_reset_and_hazards.md R193). -/
  prevReset : Byte
deriving DecidableEq, Repr

/-- The values WMFD takes (00_scope.md R8; decisions D4, D6, D8, D9, D10). -/
def wmfd : Params :=
  { atomicPublish := true
    trailerMarkerMode := .validateThenRestart
    speedQuant := .truncFinal
    invalidPolicy := .hold
    prevReset := 0xFF#8 }

/-- CONTROL_PERIOD: the host's spacing of MIX words, a positive count of an unnamed unit of time. OPEN
(00_scope.md R8, 60_exceptions.md R171): no rule reads it, and nothing in the model does. -/
opaque controlPeriod : ℕ+

/-- RXQ_DEPTH: the depth of the byte source's buffer, at least 1. OPEN (00_scope.md R8, 20_memory.md R62): it lives
in the external byte source, no rule reads it, and nothing in the model does. -/
opaque rxqDepth : ℕ+

end Sys2Proof.Config
end

