-- ==== Sys2Proof/Syntax.lean ====
section
/-! DEFINITION. The three operations of WMFD's input port (30_encoding.md R75), one constructor for each row of
the opcode table. -/

namespace Sys2Proof

/-- An operation of the input port. -/
inductive Instr where
  /-- RXB b: the decoder consumes the stream byte b, an unsigned integer 0..255 (R76, 40_decoder.md R102). -/
  | rxb (b : Byte)
  /-- MIX: one mixer control cycle; no operand (R77, 41_mixer.md R130). -/
  | mix
  /-- RST: reset; no operand (R78, 70_reset_and_hazards.md R191). -/
  | rst
deriving DecidableEq, Repr

end Sys2Proof
end

