-- ==== Sys2Proof/Machine/State.lean ====
section
/-! DEFINITION. The state of WMFD (10_state.md R20), the event history (R31) and the state right after power-on reset
(70_reset_and_hazards.md R190). -/

namespace Sys2Proof.Machine

/-- Why the machine stops with a fault. -/
inductive Fault where
  /-- Raised by `memRead` and `memWrite` for an address of PAY outside 0..5 (20_memory.md R51: "A model may make an
  out-of-range access a fault"). No operation forms such an address, so no step raises it. Safe. -/
  | payOutOfRange (addr : Nat)
deriving DecidableEq, Repr

/-- Why the model gives an operation no meaning. A reserved WORD is not here: its effect is the one of
60_exceptions.md R162, a next state (log entry 3). -/
inductive Refusal where
  /-- Raised by an arm of `exec` whose instruction has no meaning yet; no arm is left so. Safe. -/
  | notModelled (mnemonic : String)
deriving DecidableEq, Repr

/-- A motor's direction register: 0 is forward, 1 is reverse (30_encoding.md R81; log entry 7). -/
inductive Direction where
  | forward
  | reverse
deriving DecidableEq, Repr

/-- The two motors (10_state.md R28). -/
inductive Motor where
  | a
  | b
deriving DecidableEq, Repr

/-- A diagnostic record: code, observed byte, expected byte (30_encoding.md R82). -/
structure DiagRecord where
  code : BitVec 8
  observed : Byte
  expected : Byte
deriving DecidableEq, Repr

/-- A field of the sample. -/
inductive SampleField where
  | x
  | y
  | valid
deriving DecidableEq, Repr

/-- A write of one sample field that a trailer step issued and the decoder has not performed yet: an element of
`pub_pending` (10_state.md R37, 20_memory.md R59). -/
inductive FieldWrite where
  | x (v : Byte)
  | y (v : Byte)
  | valid (v : Bool)
deriving DecidableEq, Repr

/-- `mix_partial`: the sample fields that the MIX in progress has read, with their values (10_state.md R37). -/
structure PartialSnapshot where
  x : Option Byte
  y : Option Byte
  valid : Option Bool
deriving DecidableEq, Repr

/-- No field has been read: no MIX is in progress. -/
def PartialSnapshot.empty : PartialSnapshot := { x := none, y := none, valid := none }

/-- The payload space PAY as (address, byte) cells: addresses strictly rising, and no cell that holds what an
unlisted address reads as (`Memory.wf`; log entry 6). -/
abbrev Memory := List Host.Cell

/-- What an address of PAY that is not listed reads as: its reset value 0x00 (70_reset_and_hazards.md R190). -/
def Memory.unlisted : Byte := 0x00#8

/-- The canonical form of PAY: addresses strictly rising, all below 6, and no cell with the unlisted value. -/
abbrev Memory.wf (m : Memory) : Prop :=
  m.Pairwise (fun c d => c.1 < d.1) ∧ ∀ c ∈ m, c.1 < Config.payloadLen ∧ c.2 ≠ Memory.unlisted

/-- An event of the history (10_state.md R31). -/
inductive Event where
  /-- An operation was accepted. -/
  | accepted (i : Instr)
  /-- The sample was written as a group: the fields written, with their values (20_memory.md R54). -/
  | published (x y : Option Byte) (valid : Bool)
  /-- A pending write was performed (relaxed mode, 20_memory.md R59). -/
  | fieldWritten (w : FieldWrite)
  /-- The mixer's snapshot, with the values read. -/
  | snapshot (x y : Byte) (valid : Bool)
  /-- A Drive, with the values written (41_mixer.md R139). -/
  | drove (m : Motor) (dir : Direction) (duty : Duty)
  /-- A diagnostic record was emitted (40_decoder.md R113). -/
  | diagnosed (r : DiagRecord)
  /-- A reserved word was refused (60_exceptions.md R162). -/
  | refusal (w : OpWord)
deriving DecidableEq, Repr

/-- The state: one field for each row of the table of 10_state.md R20, then the event history of R31 and the model's
own queue at the input port. -/
structure State where
  /-- `prev_byte`: the last byte the decoder consumed (R21). -/
  prevByte : Byte
  /-- `reading`: inside a frame (R22). -/
  reading : Bool
  /-- `position`: the bytes accumulated in the current frame (R23). -/
  position : Position
  /-- `payload[0..5]`, the space PAY (R24). -/
  payload : Memory
  /-- `sample_x` (R26). -/
  sampleX : Byte
  /-- `sample_y` (R26). -/
  sampleY : Byte
  /-- `sample_valid` (R27). -/
  sampleValid : Bool
  /-- `dir_a` (R28). -/
  dirA : Direction
  /-- `duty_a` (R28). -/
  dutyA : Duty
  /-- `dir_b` (R28). -/
  dirB : Direction
  /-- `duty_b` (R28). -/
  dutyB : Duty
  /-- `diag_log`: the diagnostic records emitted, oldest first (R30). -/
  diagLog : List DiagRecord
  /-- `pub_pending`: empty whenever ATOMIC_PUBLISH is true (R37). -/
  pubPending : List FieldWrite
  /-- `mix_partial`: empty whenever ATOMIC_PUBLISH is true (R37). -/
  mixPartial : PartialSnapshot
  /-- `refused`: the sticky mark that a reserved word was met (R38). -/
  refused : Bool
  /-- The event history, oldest first: bookkeeping, read by no rule (R31; log entry 4). -/
  history : List Event
  /-- The model's own field: the operation words at the input port that WMFD has not taken yet, oldest first
  (log entry 1). -/
  input : List OpWord
deriving DecidableEq, Repr

/-- The state after power-on reset of a block with the parameters `p` (70_reset_and_hazards.md R190). -/
def State.resetWith (p : Config.Params) : State :=
  { prevByte := p.prevReset
    reading := false
    position := 0#3
    payload := []
    sampleX := 0x00#8
    sampleY := 0x00#8
    sampleValid := false
    dirA := .forward
    dutyA := 0#7
    dirB := .forward
    dutyB := 0#7
    diagLog := []
    pubPending := []
    mixPartial := PartialSnapshot.empty
    refused := false
    history := []
    input := [] }

/-- The state of WMFD after power-on reset (R190). -/
def State.reset : State := State.resetWith Config.wmfd

end Sys2Proof.Machine
end

