-- ==== Sys2Proof/Machine/Ops.lean ====
section
/-! DEFINITION. The named operations over the state: PAY (20_memory.md R50, R51), the sample handoff (R54, R59), the
diagnostic channel (10_state.md R30), the outputs (41_mixer.md R139), the event history (10_state.md R31), refusal
(60_exceptions.md R162), reset (70_reset_and_hazards.md R190, R191) and the observation port (30_encoding.md R83).
WMFD has no trap entry and no return from one (60_exceptions.md R166, R167), so there is no operation for either. -/

namespace Sys2Proof.Machine

/-! ### PAY -/

/-- The byte of PAY at an address: the listed one, else the unlisted value. -/
def Memory.read : Memory → Nat → Byte
  | [], _ => Memory.unlisted
  | c :: m, a => if c.1 = a then c.2 else Memory.read m a

/-- The cells with a cell put at its place by address. -/
def Memory.insertCell (a : Nat) (v : Byte) : Memory → Memory
  | [] => [(a, v)]
  | c :: m => if a < c.1 then (a, v) :: c :: m else c :: Memory.insertCell a v m

/-- The cells after a byte is stored at an address, in canonical form: a cell with the unlisted value is dropped. -/
def Memory.write (m : Memory) (a : Nat) (v : Byte) : Memory :=
  let rest := m.filter (fun c => c.1 != a)
  if v = Memory.unlisted then rest else Memory.insertCell a v rest

/-- `MemRead(a, 1)` (20_memory.md R51). -/
def memRead (s : State) (a : Nat) : Except Fault Byte :=
  if a < Config.payloadLen then .ok (s.payload.read a) else .error (.payOutOfRange a)

/-- `MemWrite(a, 1, v)` (20_memory.md R51). -/
def memWrite (s : State) (a : Nat) (v : Byte) : Except Fault State :=
  if a < Config.payloadLen then .ok { s with payload := s.payload.write a v } else .error (.payOutOfRange a)

/-- An access to PAY that may fault, as an outcome of a step. -/
def toOutcome : Except Fault State → Host.Outcome State Fault Refusal
  | .ok s => .next s
  | .error f => .fault f

/-! ### Event history -/

/-- The state with one event added at the end of the history (10_state.md R31). -/
def State.record (s : State) (e : Event) : State := { s with history := s.history ++ [e] }

/-! ### The sample handoff -/

/-- A sample field takes a value. -/
def writeField (s : State) : FieldWrite → State
  | .x v => { s with sampleX := v }
  | .y v => { s with sampleY := v }
  | .valid v => { s with sampleValid := v }

/-- `Publish(x, y, 1)` of a passing trailer: one indivisible write of the group when ATOMIC_PUBLISH is true
(20_memory.md R54), else three pending writes in the order x, y, valid (R59). -/
def publishPass (p : Config.Params) (x y : Byte) (s : State) : State :=
  if p.atomicPublish then
    ({ s with sampleX := x, sampleY := y, sampleValid := true }).record (.published (some x) (some y) true)
  else { s with pubPending := s.pubPending ++ [.x x, .y y, .valid true] }

/-- `Publish(-, -, 0)` of a failing trailer: `sample_valid` is cleared, x and y stay (20_memory.md R54); one pending
write when ATOMIC_PUBLISH is false (R59). -/
def publishFail (p : Config.Params) (s : State) : State :=
  if p.atomicPublish then ({ s with sampleValid := false }).record (.published none none false)
  else { s with pubPending := s.pubPending ++ [.valid false] }

/-! ### Diagnostic channel -/

/-- The code CHECKSUM_MISMATCH, the only one (30_encoding.md R82, 60_exceptions.md R161). -/
def checksumMismatch : BitVec 8 := 0x01#8

/-- `Emit(rec)`: the record is appended to the diagnostic channel (10_state.md R30). -/
def emit (r : DiagRecord) (s : State) : State :=
  ({ s with diagLog := s.diagLog ++ [r] }).record (.diagnosed r)

/-! ### Outputs -/

/-- `Drive(m, d, u)`: the direction and duty registers of a motor take their values (41_mixer.md R139). -/
def drive (m : Motor) (d : Direction) (u : Duty) (s : State) : State :=
  match m with
  | .a => ({ s with dirA := d, dutyA := u }).record (.drove .a d u)
  | .b => ({ s with dirB := d, dutyB := u }).record (.drove .b d u)

/-! ### Refusal, reset, power-on -/

/-- `raise Refuse(ReservedWord(W))`: no hardware state changes, the sticky mark is set and the history records the
word (60_exceptions.md R162). -/
def refuse (w : OpWord) (s : State) : State := ({ s with refused := true }).record (.refusal w)

/-- The elements that reset writes, at their reset values (70_reset_and_hazards.md R190, R191); `diag_log` and
`refused` stay. -/
def resetElements (p : Config.Params) (s : State) : State :=
  { s with
    prevByte := p.prevReset
    reading := false
    position := 0#3
    payload := []
    sampleX := 0x00#8
    sampleY := 0x00#8
    sampleValid := false
    dirA := .forward
    dutyA := 0#7
    dirB := .forward
    dutyB := 0#7
    pubPending := []
    mixPartial := PartialSnapshot.empty }

/-- Power-on reset: the effect of RST, and `diag_log` emptied and `refused` cleared (70_reset_and_hazards.md R191).
The model's bookkeeping, history and port queue, stays (DESIGN CHOICE, log entry 5). -/
def powerOn (p : Config.Params) (s : State) : State :=
  { resetElements p s with diagLog := [], refused := false }

/-! ### Observation port -/

/-- The direction bit (30_encoding.md R81). -/
def Direction.toBit : Direction → BitVec 1
  | .forward => 0#1
  | .reverse => 1#1

/-- The fields of the observation port, each a separate signal (30_encoding.md R83). -/
structure Observation where
  obsSampleX : BitVec 8
  obsSampleY : BitVec 8
  obsSampleValid : BitVec 1
  obsDirA : BitVec 1
  obsDutyA : BitVec 7
  obsDirB : BitVec 1
  obsDutyB : BitVec 7
deriving DecidableEq, Repr

/-- What the observation port carries: reading it changes nothing (20_memory.md R55). -/
def observe (s : State) : Observation :=
  { obsSampleX := s.sampleX
    obsSampleY := s.sampleY
    obsSampleValid := BitVec.ofBool s.sampleValid
    obsDirA := s.dirA.toBit
    obsDutyA := s.dutyA
    obsDirB := s.dirB.toBit
    obsDutyB := s.dutyB }

end Sys2Proof.Machine
end

