-- ==== Sys2Proof/Machine/Operands.lean ====
section
/-! DEFINITION. What the operations read besides the word's byte: the sample, whole (20_memory.md R54) or field by field
(R59), and the six payload bytes of the checksum (40_decoder.md R110). -/

namespace Sys2Proof.Machine

/-- The mixer's snapshot of the sample (41_mixer.md R131). -/
structure Snapshot where
  x : Byte
  y : Byte
  valid : Bool
deriving DecidableEq, Repr

/-- One indivisible read of all three sample fields (20_memory.md R54). -/
def readSample (s : State) : Snapshot := { x := s.sampleX, y := s.sampleY, valid := s.sampleValid }

/-- Whether the MIX in progress has not read a field yet. -/
def PartialSnapshot.unread (q : PartialSnapshot) : SampleField → Bool
  | .x => q.x.isNone
  | .y => q.y.isNone
  | .valid => q.valid.isNone

/-- One read of the relaxed mode: the field's value is recorded in `mix_partial` (20_memory.md R59). -/
def readField (s : State) : SampleField → State
  | .x => { s with mixPartial := { s.mixPartial with x := some s.sampleX } }
  | .y => { s with mixPartial := { s.mixPartial with y := some s.sampleY } }
  | .valid => { s with mixPartial := { s.mixPartial with valid := some s.sampleValid } }

/-- The snapshot that `mix_partial` holds once all three fields are read. -/
def PartialSnapshot.complete (q : PartialSnapshot) : Option Snapshot :=
  match q.x, q.y, q.valid with
  | some x, some y, some v => some { x := x, y := y, valid := v }
  | _, _, _ => none

/-- The six payload bytes, in address order (40_decoder.md R110). -/
def readPayload (s : State) : Except Fault (List Byte) := do
  let b0 ← memRead s 0
  let b1 ← memRead s 1
  let b2 ← memRead s 2
  let b3 ← memRead s 3
  let b4 ← memRead s 4
  let b5 ← memRead s 5
  return [b0, b1, b2, b3, b4, b5]

end Sys2Proof.Machine
end

