-- ==== Sys2Proof/Machine/Flags.lean ====
section
/-! DEFINITION. The conditions and derived values of the rules: the marker predicate (40_decoder.md R101), the trailer
condition (R102), the checksum (R110), the direction and the magnitude of a speed (41_mixer.md R137, R138). -/

namespace Sys2Proof.Machine

/-- The marker predicate M(b), with `prev_byte` as it is before the step (40_decoder.md R101). -/
def marker (s : State) (b : Byte) : Bool := s.prevByte == Config.marker0 && b == Config.marker1

/-- Whether the byte that comes is the trailer (40_decoder.md R102). -/
def atTrailer (s : State) : Bool := s.reading && s.position == 6#3

/-- The sum of bytes as unsigned integers, reduced mod 256 once at the end (40_decoder.md R110). -/
def sumMod256 (bs : List Byte) : Byte := BitVec.ofNat 8 ((bs.map BitVec.toNat).sum % Config.checksumMod)

/-- `Checksum()` over the six payload bytes (40_decoder.md R110). -/
def checksum (s : State) : Except Fault Byte := do
  let bs ← readPayload s
  return sumMod256 bs

/-- `Dir(sp)`: reverse when the speed is negative, else forward (41_mixer.md R138). -/
def dirOf (sp : Int) : Direction := if sp < 0 then .reverse else .forward

/-- `Mag(sp) = min(99, abs(sp))` (41_mixer.md R137). -/
def magOf (sp : Int) : Duty := BitVec.ofNat 7 (min Config.dutyMax sp.natAbs)

end Sys2Proof.Machine
end

