-- ==== Sys2Proof/Machine/Decoder.lean ====
section
/-! DEFINITION. The frame decoder family: RXB (40_decoder.md R102 to R113). -/

namespace Sys2Proof.Machine

/-- The validation of a trailer (40_decoder.md R107): publish on a pass (R111); on a fail clear valid (R112) and emit one
mismatch record (R113); in both, leave the frame. `position` stays (decision D13). -/
def validateTrailer (p : Config.Params) (b : Byte) (s : State) : Except Fault State := do
  let e ← checksum s
  let x ← memRead s Config.xIndex
  let y ← memRead s Config.yIndex
  if b = e then
    return { publishPass p x y s with reading := false }
  else
    let r : DiagRecord := { code := checksumMismatch, observed := b, expected := e }
    return { emit r (publishFail p s) with reading := false }

/-- The append of a payload byte at `position` (40_decoder.md R105). -/
def appendByte (b : Byte) (s : State) : Except Fault State := do
  let t ← memWrite s s.position.toNat b
  return { t with position := s.position + 1#3 }

/-- The start of a frame (40_decoder.md R104, R106, R108). -/
def startFrame (s : State) : State := { s with position := 0#3, reading := true }

/-- `do_validate`: the byte is the trailer, and validation is not skipped for a marker (40_decoder.md R102). -/
def doValidate (p : Config.Params) (b : Byte) (s : State) : Bool :=
  atTrailer s && !(marker s b && p.trailerMarkerMode == .restartOnly)

/-- `do_start`: the byte completes a marker, and the trailer does not suppress it (40_decoder.md R102). -/
def doStart (p : Config.Params) (b : Byte) (s : State) : Bool :=
  marker s b && !(atTrailer s && p.trailerMarkerMode == .validateOnly)

/-- The first part of R102: validate the trailer, or append a payload byte, or neither. -/
def consumeByte (p : Config.Params) (b : Byte) (s : State) : Except Fault State :=
  if doValidate p b s then validateTrailer p b s
  else if s.reading && decide (s.position < 6#3) && !marker s b then appendByte b s
  else .ok s

/-- The last part of R102: start a frame if `start` says so, then `prev_byte <- b` (40_decoder.md R109). -/
def finishByte (start : Bool) (b : Byte) (s : State) : State :=
  if start then { startFrame s with prevByte := b } else { s with prevByte := b }

/-- RXB b on a block with the parameters `p` (40_decoder.md R102). The marker and trailer conditions are those of the
state before the step. -/
def rxbWith (p : Config.Params) (b : Byte) (s0 : State) : Host.Outcome State Fault Refusal :=
  let s := s0.record (.accepted (.rxb b))
  toOutcome ((consumeByte p b s).map (finishByte (doStart p b s) b))

/-- RXB b of WMFD (40_decoder.md R102). -/
def execRxb (b : Byte) (s : State) : Host.Outcome State Fault Refusal := rxbWith Config.wmfd b s

end Sys2Proof.Machine
end

