-- ==== Sys2Proof/Machine/Mixer.lean ====
section
/-! DEFINITION. The motor mixer family: MIX (41_mixer.md R130 to R139). -/

namespace Sys2Proof.Machine

/-! ### The exact rational reading of the rules -/

/-- The centred axis, -128..127 (41_mixer.md R133). -/
def centred (v : Byte) : Int := (v.toNat : Int) - Config.center

/-- `adjustedY`, an exact rational (41_mixer.md R134). -/
def adjustedY (sy : Byte) : ℚ := (centred sy : ℚ) * Config.gainY

/-- `adjustedX`, an exact rational (41_mixer.md R134). -/
def adjustedX (sx : Byte) : ℚ := (centred sx : ℚ) * Config.gainX

/-- The exact speed of a motor: A takes the difference, B the sum (41_mixer.md R135). -/
def exactSpeed (m : Motor) (sx sy : Byte) : ℚ :=
  match m with
  | .a => adjustedY sy - adjustedX sx
  | .b => adjustedY sy + adjustedX sx

/-- `trunc(q)`: a rational rounded toward zero (00_scope.md R9). -/
def truncRat (q : ℚ) : Int := if q < 0 then ⌈q⌉ else ⌊q⌋

/-! ### The integers that MIX computes -/

/-- nA or nB: the speed times 20, an integer (41_mixer.md R135). -/
def scaledSpeed (m : Motor) (sx sy : Byte) : Int :=
  match m with
  | .a => 24 * centred sy - 15 * centred sx
  | .b => 24 * centred sy + 15 * centred sx

/-- `trunc(n / d)`: the quotient of two integers rounded toward zero (00_scope.md R9, 41_mixer.md R136). -/
def truncQuot (n d : Int) : Int := Int.tdiv n d

/-- spA or spB: the integer speed under SPEED_QUANT = trunc_final (41_mixer.md R136). -/
def speedFinal (m : Motor) (sx sy : Byte) : Int := truncQuot (scaledSpeed m sx sy) 20

/-- The integer speed under SPEED_QUANT = trunc_axes: each axis truncated, then mixed (41_mixer.md R136). -/
def speedAxes (m : Motor) (sx sy : Byte) : Int :=
  match m with
  | .a => truncQuot (6 * centred sy) 5 - truncQuot (3 * centred sx) 4
  | .b => truncQuot (6 * centred sy) 5 + truncQuot (3 * centred sx) 4

/-- The direction a motor is driven in (41_mixer.md R136, R138). -/
def driveDir (q : Config.SpeedQuant) (m : Motor) (sx sy : Byte) : Direction :=
  match q with
  | .truncFinal => dirOf (speedFinal m sx sy)
  | .truncAxes => dirOf (speedAxes m sx sy)
  | .exactSign => dirOf (scaledSpeed m sx sy)

/-- The duty a motor is driven with (41_mixer.md R136, R137). The floor of the exact magnitude is the magnitude of
the truncated speed. -/
def driveMag (q : Config.SpeedQuant) (m : Motor) (sx sy : Byte) : Duty :=
  match q with
  | .truncFinal => magOf (speedFinal m sx sy)
  | .truncAxes => magOf (speedAxes m sx sy)
  | .exactSign => BitVec.ofNat 7 (min Config.dutyMax ((scaledSpeed m sx sy).natAbs / 20))

/-- The gate and the stages after the read (41_mixer.md R130, R132 to R139): a snapshot that is not valid leaves the
outputs as they are (INVALID_POLICY = hold). -/
def mixFrom (p : Config.Params) (q : Snapshot) (s : State) : State :=
  if q.valid then
    drive .b (driveDir p.speedQuant .b q.x q.y) (driveMag p.speedQuant .b q.x q.y)
      (drive .a (driveDir p.speedQuant .a q.x q.y) (driveMag p.speedQuant .a q.x q.y) s)
  else match p.invalidPolicy with
    | .hold => s

/-- MIX as one atomic step on a block with the parameters `p` (41_mixer.md R130, ATOMIC_PUBLISH = true). -/
def mixWith (p : Config.Params) (s0 : State) : Host.Outcome State Fault Refusal :=
  let s := s0.record (.accepted .mix)
  let q := readSample s
  .next (mixFrom p q (s.record (.snapshot q.x q.y q.valid)))

/-- MIX of WMFD (41_mixer.md R130). -/
def execMix (s : State) : Host.Outcome State Fault Refusal := mixWith Config.wmfd s

end Sys2Proof.Machine
end

