-- ==== Sys2Proof/Machine/Reset.lean ====
section
/-! DEFINITION. The reset family: RST (70_reset_and_hazards.md R191). -/

namespace Sys2Proof.Machine

/-- RST on a block with the parameters `p` (70_reset_and_hazards.md R191): the elements of R190 take their reset values,
the sample by a write of the whole group; `diag_log`, `refused`, the port and the history's past stay (R192). -/
def rstWith (p : Config.Params) (s0 : State) : Host.Outcome State Fault Refusal :=
  let s := s0.record (.accepted .rst)
  .next ((resetElements p s).record (.published (some 0x00#8) (some 0x00#8) false))

/-- RST of WMFD (70_reset_and_hazards.md R191). -/
def execRst (s : State) : Host.Outcome State Fault Refusal := rstWith Config.wmfd s

end Sys2Proof.Machine
end

