-- ==== Sys2Proof/WellFormed.lean ====
section
/-! DEFINITION. Well-formedness of operation words and of operations (30_encoding.md R75, R79). -/

namespace Sys2Proof

/-- A word is reserved when it lies in 0x101..0x1FF, 0x201..0x2FF or 0x300..0x3FF (30_encoding.md R79). -/
def OpWord.reserved (w : OpWord) : Bool :=
  (0x101 ≤ w.toNat && w.toNat ≤ 0x1FF) || (0x201 ≤ w.toNat && w.toNat ≤ 0x2FF) || 0x300 ≤ w.toNat

/-- A word is well formed when it encodes an operation, that is, when it is not reserved. -/
def OpWord.wellFormed (w : OpWord) : Bool := !w.reserved

/-- Every operation is well formed: RXB takes each of the 256 bytes (30_encoding.md R76), and MIX and RST have
no operand (R77, R78). -/
def Instr.wellFormed : Instr → Bool
  | .rxb _ => true
  | .mix => true
  | .rst => true

end Sys2Proof
end

