-- ==== Sys2Proof/Decode.lean ====
section
/-! DEFINITION. Decoding and encoding of operation words (30_encoding.md R75 to R80). -/

namespace Sys2Proof

/-- Why a word is no operation. -/
inductive DecodeError where
  /-- The word is reserved: it encodes nothing, and the model refuses it (30_encoding.md R79,
  60_exceptions.md R162). -/
  | reservedWord (w : OpWord)
deriving DecidableEq, Repr

/-- The kind field, `W[9:8]` (R75). -/
def OpWord.kind (w : OpWord) : BitVec 2 := w.extractLsb' 8 2

/-- The data byte, `W[7:0]` (R75). -/
def OpWord.data (w : OpWord) : Byte := w.extractLsb' 0 8

/-- The decoder of words, total on all 1024 values (R80). -/
def decode (w : OpWord) : Except DecodeError Instr :=
  if w.kind = 0b00#2 then .ok (.rxb w.data)
  else if w = 0x100#10 then .ok .mix
  else if w = 0x200#10 then .ok .rst
  else .error (.reservedWord w)

/-- The word of an operation (R76, R77, R78). -/
def encode : Instr → OpWord
  | .rxb b => 0b00#2 ++ b
  | .mix => 0x100#10
  | .rst => 0x200#10

/-- A row of the opcode table: its mnemonic and the bits that a word of the row has in the mask's places. -/
structure OpcodeRow where
  /-- The mnemonic, as the table spells it. -/
  mnemonic : String
  /-- The fixed bits. -/
  fixed : OpWord
  /-- Which bits are fixed. -/
  mask : OpWord
deriving DecidableEq, Repr

/-- A word fits a row when it has the row's fixed bits. -/
def OpcodeRow.fits (r : OpcodeRow) (w : OpWord) : Bool := w &&& r.mask == r.fixed

/-- The opcode table's rows. -/
def opcodeTable : List OpcodeRow :=
  [ { mnemonic := "RXB", fixed := 0x000#10, mask := 0x300#10 },
    { mnemonic := "MIX", fixed := 0x100#10, mask := 0x3FF#10 },
    { mnemonic := "RST", fixed := 0x200#10, mask := 0x3FF#10 } ]

/-- The row of an operation. -/
def Instr.row : Instr → OpcodeRow
  | .rxb _ => { mnemonic := "RXB", fixed := 0x000#10, mask := 0x300#10 }
  | .mix => { mnemonic := "MIX", fixed := 0x100#10, mask := 0x3FF#10 }
  | .rst => { mnemonic := "RST", fixed := 0x200#10, mask := 0x3FF#10 }

/-- The word that the port's ten lines carry when the bits of an instruction are `w`, of which the first `nbits`
count. The port has ten lines, so bits 10 and above do not reach it (DESIGN CHOICE, log entry 12). -/
def portWord (nbits w : Nat) : OpWord := BitVec.ofNat 10 (w % 2 ^ nbits)

/-- The operation that the decoder reads from an instruction whose bits are `w`. -/
def decodeTableWord (nbits w : Nat) : Option Instr :=
  match decode (portWord nbits w) with
  | .ok i => some i
  | .error _ => none

end Sys2Proof
end

