-- ==== Sys2Proof/Machine/Port.lean ====
section
/-! DEFINITION. The input port: how a step takes the next operation word (30_encoding.md R75, 20_memory.md R62, R63) and
what it does with a word that is no operation (60_exceptions.md R162). -/

namespace Sys2Proof.Machine

/-- The word at the port and the state once it is taken; nothing when the port is empty (log entry 1). -/
def fetch (s : State) : Option (OpWord × State) :=
  match s.input with
  | [] => none
  | w :: rest => some (w, { s with input := rest })

/-- A step while no word is at the port: the block waits, and nothing changes (20_memory.md R63; log entry 2). -/
def idle (s : State) : Host.Outcome State Fault Refusal := .next s

/-- A step on a word that is no operation (60_exceptions.md R162; log entry 3). -/
def reject (e : DecodeError) (s : State) : Host.Outcome State Fault Refusal :=
  match e with
  | .reservedWord w => .next (refuse w s)

/-- The state with a word put before all others at the port. -/
def putFirst (w : OpWord) (s : State) : State := { s with input := w :: s.input }

end Sys2Proof.Machine
end

