-- ==== Sys2Proof/Machine/Step.lean ====
section
/-! DEFINITION. One step of WMFD: it takes the next word at the port and runs the operation it encodes, as one atomic
step (00_scope.md R6). -/

namespace Sys2Proof.Machine

/-- One step of WMFD. -/
def step (s : State) : Host.Outcome State Fault Refusal :=
  match fetch s with
  | none => idle s
  | some (w, t) =>
    match decode w with
    | .ok i => exec i t
    | .error e => reject e t

/-- The state with an instruction's bits at the place the next step takes its word from: the front of the port's queue.
The words already there wait behind it (log entry 1). -/
def State.withFetchWord (s : State) (nbits w : Nat) : State := putFirst (portWord nbits w) s

end Sys2Proof.Machine
end

