-- ==== Sys2Proof/Machine/Stimulus.lean ====
section
/-! DEFINITION. Stimulus programs: the wire frame (30_encoding.md R70, R71) and the lines of a program, the
pseudo-instructions among them, with the words they assemble to (R84, R85). -/

namespace Sys2Proof.Machine

/-- The six payload bytes of a frame (30_encoding.md R70). -/
structure Payload where
  p0 : Byte
  p1 : Byte
  p2 : Byte
  p3 : Byte
  p4 : Byte
  p5 : Byte
deriving DecidableEq, Repr

/-- The payload bytes in transmission order. -/
def Payload.bytes (p : Payload) : List Byte := [p.p0, p.p1, p.p2, p.p3, p.p4, p.p5]

/-- The checksum of a frame that passes: the sum of the payload bytes mod 256 (30_encoding.md R71, R73). -/
def Payload.checksum (p : Payload) : Byte :=
  BitVec.ofNat 8 ((p.p0.toNat + p.p1.toNat + p.p2.toNat + p.p3.toNat + p.p4.toNat + p.p5.toNat) % Config.checksumMod)

/-- The bytes of a frame on the wire: marker, payload, checksum byte (30_encoding.md R70). -/
def frameBytes (p : Payload) (c : Byte) : List Byte := [Config.marker0, Config.marker1] ++ p.bytes ++ [c]

/-- A line of a stimulus program; numerals as written, in range or not (30_encoding.md R84, R85). -/
inductive Line where
  /-- `RXB <byte>` -/
  | rxb (b : Nat)
  /-- `MIX` -/
  | mix
  /-- `RST` -/
  | rst
  /-- `.word <W>`: a raw word, reserved ones too. -/
  | word (w : Nat)
  /-- `BYTES b0, …, bn` -/
  | bytes (bs : List Nat)
  /-- `FRAME p0, …, p5`: a frame with the correct checksum. -/
  | frame (ps : List Nat)
  /-- `BADFRAME p0, …, p5, c`: a frame with the checksum as given. -/
  | badframe (ps : List Nat)
deriving DecidableEq, Repr

/-- Whether a line's numerals fit: bytes below 256, words below 1024, six payload bytes for FRAME and a seventh numeral
for BADFRAME, at least one byte for BYTES. -/
def Line.wellFormed : Line → Bool
  | .rxb b => decide (b < 256)
  | .mix => true
  | .rst => true
  | .word w => decide (w < 1024)
  | .bytes bs => !bs.isEmpty && bs.all (fun b => decide (b < 256))
  | .frame ps => ps.length == 6 && ps.all (fun b => decide (b < 256))
  | .badframe ps => ps.length == 7 && ps.all (fun b => decide (b < 256))

/-- RXB words of byte values. -/
def rxbWords (bs : List Nat) : List OpWord := bs.map fun b => encode (.rxb (BitVec.ofNat 8 b))

/-- The words a line assembles to, in order; nothing for a line that is not well formed (30_encoding.md R84, R85). -/
def Line.words (l : Line) : Option (List OpWord) :=
  if l.wellFormed then
    match l with
    | .rxb b => some (rxbWords [b])
    | .mix => some [encode .mix]
    | .rst => some [encode .rst]
    | .word w => some [BitVec.ofNat 10 w]
    | .bytes bs => some (rxbWords bs)
    | .frame ps => some (rxbWords ([0x00, 0xFF] ++ ps ++ [ps.sum % 256]))
    | .badframe ps => some (rxbWords ([0x00, 0xFF] ++ ps))
  else none

/-- The words of a program: its lines' words, in order (30_encoding.md R84). -/
def assemble : List Line → Option (List OpWord)
  | [] => some []
  | l :: ls =>
    match l.words, assemble ls with
    | some ws, some rest => some (ws ++ rest)
    | _, _ => none

/-- A program's words put at the port behind those already there. -/
def loadWords (ws : List OpWord) (s : State) : State := { s with input := s.input ++ ws }

/-! ### The text of a line -/

/-- The value of a decimal digit. -/
def decDigit (c : Char) : Option Nat :=
  if '0'.toNat ≤ c.toNat ∧ c.toNat ≤ '9'.toNat then some (c.toNat - '0'.toNat) else none

/-- The value of a hexadecimal digit, in either case of its letters (DESIGN CHOICE, log entry 14). -/
def hexDigit (c : Char) : Option Nat :=
  if 'A'.toNat ≤ c.toNat ∧ c.toNat ≤ 'F'.toNat then some (c.toNat - 'A'.toNat + 10)
  else if 'a'.toNat ≤ c.toNat ∧ c.toNat ≤ 'f'.toNat then some (c.toNat - 'a'.toNat + 10)
  else decDigit c

/-- Digits in a base, the most significant first. -/
def readDigits (base : Nat) (digit : Char → Option Nat) : Nat → List Char → Option Nat
  | acc, [] => some acc
  | acc, c :: cs =>
    match digit c with
    | some d => readDigits base digit (base * acc + d) cs
    | none => none

/-- A numeral: `0x` and hexadecimal digits, or decimal digits, as 30_encoding.md R84 writes an RXB's byte. R84 writes the
operand of `.word` only as `0xNNN`; that it may be decimal too, and that the count of digits is free, is the model's
(DESIGN CHOICE, log entry 14). -/
def readNumeral : List Char → Option Nat
  | '0' :: 'x' :: c :: cs => readDigits 16 hexDigit 0 (c :: cs)
  | c :: cs => readDigits 10 decDigit 0 (c :: cs)
  | [] => none

/-- A blank: a space or a tab. -/
def isBlank (c : Char) : Bool := c == ' ' || c == '\t'

/-- The text before a comment (30_encoding.md R84). -/
def dropComment (cs : List Char) : List Char := cs.takeWhile (fun c => c != ';')

/-- The text without blanks at either end. -/
def trimBlanks (cs : List Char) : List Char := ((cs.dropWhile isBlank).reverse.dropWhile isBlank).reverse

/-- The text cut at its commas. -/
def splitCommas : List Char → List (List Char)
  | [] => [[]]
  | c :: cs =>
    if c == ',' then [] :: splitCommas cs
    else match splitCommas cs with
      | [] => [[c]]
      | f :: fs => (c :: f) :: fs

/-- Texts read as numerals, all or none. -/
def readNumerals : List (List Char) → Option (List Nat)
  | [] => some []
  | f :: fs =>
    match readNumeral (trimBlanks f), readNumerals fs with
    | some n, some ns => some (n :: ns)
    | _, _ => none

/-- The operands of a line: nothing, or numerals between commas. -/
def readOperands (cs : List Char) : Option (List Nat) :=
  match trimBlanks cs with
  | [] => some []
  | c :: rest => readNumerals (splitCommas (c :: rest))

/-- A line from its mnemonic and operands. -/
def makeLine (mnemonic : List Char) (ns : List Nat) : Option Line :=
  if mnemonic = ['R', 'X', 'B'] then
    match ns with
    | [b] => some (.rxb b)
    | _ => none
  else if mnemonic = ['M', 'I', 'X'] then (if ns = [] then some .mix else none)
  else if mnemonic = ['R', 'S', 'T'] then (if ns = [] then some .rst else none)
  else if mnemonic = ['.', 'w', 'o', 'r', 'd'] then
    match ns with
    | [w] => some (.word w)
    | _ => none
  else if mnemonic = ['B', 'Y', 'T', 'E', 'S'] then some (.bytes ns)
  else if mnemonic = ['F', 'R', 'A', 'M', 'E'] then some (.frame ns)
  else if mnemonic = ['B', 'A', 'D', 'F', 'R', 'A', 'M', 'E'] then some (.badframe ns)
  else none

/-- What a line of text holds. -/
inductive LineText where
  /-- Only blanks or a comment. -/
  | blank
  /-- One operation or pseudo-instruction. -/
  | line (l : Line)
  /-- Neither. -/
  | malformed
deriving DecidableEq, Repr

/-- A line of text read (30_encoding.md R84, R85): the comment dropped, then a mnemonic, then operands. -/
def readLine (cs : List Char) : LineText :=
  let body := trimBlanks (dropComment cs)
  match body with
  | [] => .blank
  | _ =>
    match readOperands (body.dropWhile (fun c => !isBlank c)) with
    | none => .malformed
    | some ns =>
      match makeLine (body.takeWhile (fun c => !isBlank c)) ns with
      | some l => .line l
      | none => .malformed

/-- The words of a program's text, line by line; nothing where a line is malformed or does not assemble. -/
def assembleText : List (List Char) → Option (List OpWord)
  | [] => some []
  | cs :: rest =>
    match readLine cs, assembleText rest with
    | .blank, some ws => some ws
    | .line l, some ws => l.words.map (fun v => v ++ ws)
    | _, _ => none

end Sys2Proof.Machine
end

