-- ==== Sys2Proof/Machine/Relaxed.lean ====
section
/-! DEFINITION. The block with its parameters as arguments (00_scope.md R8), and the relaxed handoff of
ATOMIC_PUBLISH = false (20_memory.md R59), which WMFD does not take. -/

namespace Sys2Proof.Machine

/-- The meaning of an operation on a block with the parameters `p` and ATOMIC_PUBLISH = true. -/
def execWith (p : Config.Params) (i : Instr) (s : State) : Host.Outcome State Fault Refusal :=
  match i with
  | .rxb b => rxbWith p b s
  | .mix => mixWith p s
  | .rst => rstWith p s

/-- One step of a block with ATOMIC_PUBLISH = true. -/
def atomicStep (p : Config.Params) (s : State) : Host.Outcome State Fault Refusal :=
  match fetch s with
  | none => idle s
  | some (w, t) =>
    match decode w with
    | .ok i => execWith p i t
    | .error e => reject e t

/-- Which agent moves next in the relaxed mode. It is the environment's choice at every step, so that decoder and mixer
sub-steps interleave freely, and the mixer's choice of field is the draw of the read order (20_memory.md R59, 93 A15).
An agent that has no step when its turn comes leaves the state as it is (log entry 9). -/
inductive Move where
  /-- The host: an RST or a reserved word at the port is taken. -/
  | host
  /-- The decoder: its oldest pending write, else the RXB at the port. -/
  | decoder
  /-- The mixer: it reads this field, or, once all three are read, computes and drives. -/
  | mixer (f : SampleField)
deriving DecidableEq, Repr

/-- The decoder's turn: a pending write is performed, in list order; a byte is consumed only when none is pending
(20_memory.md R59). -/
def decoderMove (p : Config.Params) (s : State) : Host.Outcome State Fault Refusal :=
  match s.pubPending with
  | w :: ws => .next ((writeField { s with pubPending := ws } w).record (.fieldWritten w))
  | [] =>
    match fetch s with
    | none => .next s
    | some (w, t) =>
      match decode w with
      | .ok (.rxb b) => rxbWith p b t
      | _ => .next s

/-- A MIX at the port is taken together with the cycle's first read (20_memory.md R59; log entry 9). -/
def mixerStart (f : SampleField) (s : State) : Host.Outcome State Fault Refusal :=
  match fetch s with
  | none => .next s
  | some (w, t) =>
    match decode w with
    | .ok .mix => .next (readField (t.record (.accepted .mix)) f)
    | _ => .next s

/-- The fourth sub-step of a relaxed MIX: compute and drive from the three values read, then clear `mix_partial`
(20_memory.md R59). -/
def mixerFinish (p : Config.Params) (q : Snapshot) (s : State) : State :=
  mixFrom p q (({ s with mixPartial := PartialSnapshot.empty }).record (.snapshot q.x q.y q.valid))

/-- The mixer's turn (20_memory.md R59): the first read takes the MIX at the port, further reads take the fields not
read yet, and the fourth sub-step drives. -/
def mixerMove (p : Config.Params) (f : SampleField) (s : State) : Host.Outcome State Fault Refusal :=
  match s.mixPartial.complete with
  | some q => .next (mixerFinish p q s)
  | none =>
    if s.mixPartial = PartialSnapshot.empty then mixerStart f s
    else if s.mixPartial.unread f then .next (readField s f)
    else .next s

/-- The host's turn: an RST or a reserved word at the port is taken. -/
def hostMove (p : Config.Params) (s : State) : Host.Outcome State Fault Refusal :=
  match fetch s with
  | none => .next s
  | some (w, t) =>
    match decode w with
    | .ok .rst => rstWith p t
    | .ok _ => .next s
    | .error e => reject e t

/-- One sub-step of a block with ATOMIC_PUBLISH = false (20_memory.md R59). -/
def relaxedStep (p : Config.Params) (mv : Move) (s : State) : Host.Outcome State Fault Refusal :=
  match mv with
  | .host => hostMove p s
  | .decoder => decoderMove p s
  | .mixer f => mixerMove p f s

/-- One step of a block with the parameters `p`: with ATOMIC_PUBLISH = true the step of the next word, whatever the move,
else the sub-step that the move names. -/
def stepWith (p : Config.Params) (mv : Move) (s : State) : Host.Outcome State Fault Refusal :=
  if p.atomicPublish then atomicStep p s else relaxedStep p mv s

/-- A run of sub-steps under a schedule, stopping at the first fault or refusal. -/
def runWith (p : Config.Params) : List Move → State → Host.Outcome State Fault Refusal
  | [], s => .next s
  | mv :: mvs, s =>
    match stepWith p mv s with
    | .next t => runWith p mvs t
    | .fault f => .fault f
    | .refused r => .refused r

/-! ### The end of a run -/

/-- Whether a run may be over: "A run is not over while either is non-empty" (10_state.md R37). -/
def State.runOver (s : State) : Bool := s.pubPending.isEmpty && decide (s.mixPartial = PartialSnapshot.empty)

/-- The last state of a completed run: nothing while the schedule leaves something in flight (10_state.md R37), or where
the run stops. -/
def completedRun (p : Config.Params) (mvs : List Move) (s : State) : Option State :=
  match runWith p mvs s with
  | .next t => if t.runOver then some t else none
  | .fault _ => none
  | .refused _ => none

/-! ### Fairness -/

/-- Who takes a turn in the relaxed mode: decoder and mixer (20_memory.md R57), and the host for an RST or a reserved word
(log entry 9). -/
inductive Agent where
  | host
  | decoder
  | mixer
deriving DecidableEq, Repr

/-- The agent whose turn a move is. -/
def Move.agent : Move → Agent
  | .host => .host
  | .decoder => .decoder
  | .mixer _ => .mixer

/-- The word at the port, decoded. -/
def portDecoded (s : State) : Option (Except DecodeError Instr) := (fetch s).map fun q => decode q.1

/-- Whether an RXB is at the port. -/
def rxbAtPort (s : State) : Bool :=
  match portDecoded s with
  | some (.ok (.rxb _)) => true
  | _ => false

/-- Whether a MIX is at the port. -/
def mixAtPort (s : State) : Bool :=
  match portDecoded s with
  | some (.ok .mix) => true
  | _ => false

/-- Whether an RST or a reserved word is at the port. -/
def hostWordAtPort (s : State) : Bool :=
  match portDecoded s with
  | some (.ok .rst) => true
  | some (.error _) => true
  | _ => false

/-- Whether a move finds its agent with that step to take in the relaxed mode; otherwise it leaves the state as it is. -/
def Move.enabled (mv : Move) (s : State) : Bool :=
  match mv with
  | .host => hostWordAtPort s
  | .decoder => !s.pubPending.isEmpty || rxbAtPort s
  | .mixer f =>
    match s.mixPartial.complete with
    | some _ => true
    | none => if s.mixPartial = PartialSnapshot.empty then mixAtPort s else s.mixPartial.unread f

/-- The moves of an endless run, by their number. -/
abbrev Schedule := Nat → Move

/-- The outcome after the first `n` moves of a schedule. -/
def Schedule.outcomeAt (σ : Schedule) (p : Config.Params) (s : State) (n : Nat) : Host.Outcome State Fault Refusal :=
  runWith p ((List.range n).map σ) s

/-- The fairness of 60_exceptions.md R174 for a run of the relaxed mode: no agent that has a step to take is passed over for
ever. After every point there is one where the agent has none, or takes one. That this is read agent by agent, as the weak
fairness of 40_decoder.md R114, is log entry 15. -/
def Schedule.fair (σ : Schedule) (p : Config.Params) (s : State) : Prop :=
  ∀ (a : Agent) (n : Nat), ∃ m, n ≤ m ∧ ∀ t, σ.outcomeAt p s m = .next t →
    (∃ mv : Move, mv.agent = a ∧ mv.enabled t = true) → (σ m).agent = a ∧ (σ m).enabled t = true

/-- The parameters of the original software's handoff: WMFD's, but for ATOMIC_PUBLISH = false (20_memory.md R59). -/
def relaxedParams : Config.Params := { Config.wmfd with atomicPublish := false }

end Sys2Proof.Machine
end

