-- ==== Sys2Proof/Safety.lean ====
section
/-! DEFINITION. The terms that statements about runs use: runs of operations, what the event history says of the state
(10_state.md R31), and the invariants of 10_state.md R25, R28, R30 and R37. -/

namespace Sys2Proof.Machine

/-! ### Runs -/

/-- Operations in order, stopping at the first fault or refusal. -/
def execAll : List Instr → State → Host.Outcome State Fault Refusal
  | [], s => .next s
  | i :: is, s =>
    match exec i s with
    | .next t => execAll is t
    | .fault f => .fault f
    | .refused r => .refused r

/-- Operations in order on a block with the parameters `p` and ATOMIC_PUBLISH = true, stopping at the first fault or
refusal. -/
def execAllWith (p : Config.Params) : List Instr → State → Host.Outcome State Fault Refusal
  | [], s => .next s
  | i :: is, s =>
    match execWith p i s with
    | .next t => execAllWith p is t
    | .fault f => .fault f
    | .refused r => .refused r

/-- `n` steps, stopping at the first fault or refusal. -/
def runSteps : Nat → State → Host.Outcome State Fault Refusal
  | 0, s => .next s
  | n + 1, s =>
    match step s with
    | .next t => runSteps n t
    | .fault f => .fault f
    | .refused r => .refused r

/-- Bytes of the stream as operations (20_memory.md R62). -/
def feed (bs : List Byte) : List Instr := bs.map Instr.rxb

/-- A run supports claims while no reserved word was met (60_exceptions.md R162). -/
def State.supportsClaims (s : State) : Bool := !s.refused

/-! ### What the history says -/

/-- The bytes consumed since the last reset, one event at a time. -/
def bytesAfter (bs : List Byte) : Event → List Byte
  | .accepted (.rxb b) => bs ++ [b]
  | .accepted .rst => []
  | _ => bs

/-- The stream since the last reset: the operands of the RXB accepted, in order (20_memory.md R62). -/
def bytesSinceReset (h : List Event) : List Byte := h.foldl bytesAfter []

/-- The sample after one event: a group write sets the fields it carries (20_memory.md R54). -/
def sampleAfter (q : Snapshot) : Event → Snapshot
  | .published x y v => { x := x.getD q.x, y := y.getD q.y, valid := v }
  | _ => q

/-- The sample that the publishes of a history leave, last write wins (20_memory.md R58). -/
def sampleOf (h : List Event) : Snapshot := h.foldl sampleAfter { x := 0x00#8, y := 0x00#8, valid := false }

/-- The four output registers. -/
structure Outputs where
  dirA : Direction
  dutyA : Duty
  dirB : Direction
  dutyB : Duty
deriving DecidableEq, Repr

/-- The outputs after reset (70_reset_and_hazards.md R190). -/
def Outputs.reset : Outputs := { dirA := .forward, dutyA := 0#7, dirB := .forward, dutyB := 0#7 }

/-- The outputs after one event: a Drive writes one motor's, a reset all (41_mixer.md R139, R191). -/
def outputsAfter (o : Outputs) : Event → Outputs
  | .drove .a d u => { o with dirA := d, dutyA := u }
  | .drove .b d u => { o with dirB := d, dutyB := u }
  | .accepted .rst => Outputs.reset
  | _ => o

/-- The outputs that the Drives of a history leave: the last command is held (41_mixer.md R132). -/
def outputsOf (h : List Event) : Outputs := h.foldl outputsAfter Outputs.reset

/-- The state's output registers. -/
def State.outputs (s : State) : Outputs := { dirA := s.dirA, dutyA := s.dutyA, dirB := s.dirB, dutyB := s.dutyB }

/-- The diagnostic records of a history, in order (10_state.md R30). -/
def recordsOf (h : List Event) : List DiagRecord :=
  h.filterMap fun e => match e with
    | .diagnosed r => some r
    | _ => none

/-- The operations a history records as accepted, in order (10_state.md R31). -/
def acceptedOf (h : List Event) : List Instr :=
  h.filterMap fun e => match e with
    | .accepted i => some i
    | _ => none

/-- The operations that words encode, in order; reserved words encode none (30_encoding.md R79). -/
def operationsOf (ws : List OpWord) : List Instr :=
  ws.filterMap fun w => match decode w with
    | .ok i => some i
    | .error _ => none

/-- Whether a history holds a refusal (10_state.md R38). -/
def refusedIn (h : List Event) : Bool :=
  h.any fun e => match e with
    | .refusal _ => true
    | _ => false

/-! ### Parts of the state -/

/-- The decoder's own state, the sample and the diagnostic channel: all that RXB writes (40_decoder.md R117), but for the
history. -/
structure DecoderView where
  prevByte : Byte
  reading : Bool
  position : Position
  payload : Memory
  sample : Snapshot
  diagLog : List DiagRecord
  pubPending : List FieldWrite
deriving DecidableEq, Repr

/-- The state's decoder part. -/
def State.decoderView (s : State) : DecoderView :=
  { prevByte := s.prevByte, reading := s.reading, position := s.position, payload := s.payload
    sample := readSample s, diagLog := s.diagLog, pubPending := s.pubPending }

/-- The first `k` bytes of PAY. -/
def payloadPrefix (s : State) (k : Nat) : List Byte := (List.range k).map s.payload.read

/-! ### Streams -/

/-- Whether a stream holds a marker: a 0x00 byte immediately followed by 0xFF (40_decoder.md R101). -/
def hasMarker : List Byte → Bool
  | a :: b :: bs => (a == Config.marker0 && b == Config.marker1) || hasMarker (b :: bs)
  | _ => false

/-! ### Invariants -/

/-- The relaxed mode's in-flight state is empty, as ATOMIC_PUBLISH = true has it (10_state.md R37). -/
def State.nothingInFlight (s : State) : Prop := s.pubPending = [] ∧ s.mixPartial = PartialSnapshot.empty

/-- Both duty registers hold a value in 0..99 (10_state.md R28). -/
def State.dutiesInRange (s : State) : Prop := s.dutyA.toNat ≤ Config.dutyMax ∧ s.dutyB.toNat ≤ Config.dutyMax

/-- The invariants I1 to I4 of 10_state.md R25, with the stream since the last reset read from the history. -/
structure State.FrameInv (s : State) : Prop where
  /-- I1: the position is at most 6. -/
  position_le : s.position.toNat ≤ 6
  /-- I2: the stream ends with a marker and then the payload bytes accumulated since. -/
  reading_stream : s.reading = true →
    ∃ pre, bytesSinceReset s.history
      = pre ++ [Config.marker0, Config.marker1] ++ payloadPrefix s s.position.toNat
  /-- I3: just after a marker the previous byte is the marker's second byte. -/
  prev_at_start : s.reading = true → s.position = 0#3 → s.prevByte = Config.marker1
  /-- I4: later in the payload the previous byte is the last one appended. -/
  prev_in_payload : s.reading = true → 1 ≤ s.position.toNat →
    s.prevByte = s.payload.read (s.position.toNat - 1)
  /-- No marker lies inside the bytes accumulated (40_decoder.md R116). -/
  no_marker_inside : s.reading = true → hasMarker (payloadPrefix s s.position.toNat) = false
  /-- The previous byte is the last one of the stream since reset, or PREV_RESET (10_state.md R21). -/
  prev_is_last : s.prevByte = (bytesSinceReset s.history).getLastD Config.wmfd.prevReset

/-- No frame without a marker (40_decoder.md R103, 70_reset_and_hazards.md R193): while the stream since the last reset
holds none, no frame is being read and the sample has its reset value. -/
structure State.NoMarkerInv (s : State) : Prop where
  /-- Without a marker nothing is read or published. -/
  idle_without_marker : hasMarker (bytesSinceReset s.history) = false →
    s.reading = false ∧ readSample s = { x := 0x00#8, y := 0x00#8, valid := false }
  /-- The previous byte is the last one of the stream since reset, or PREV_RESET (10_state.md R21). -/
  prev_is_last : s.prevByte = (bytesSinceReset s.history).getLastD Config.wmfd.prevReset

/-- The sample, the outputs, the diagnostic channel and the refused mark are what the history says: the last publish, the
last commands, the records emitted, whether a word was refused (20_memory.md R58, 10_state.md R28, R30, R38). -/
structure State.HistoryInv (s : State) : Prop where
  sample_eq : readSample s = sampleOf s.history
  outputs_eq : s.outputs = outputsOf s.history
  records_eq : s.diagLog = recordsOf s.history
  refused_eq : s.refused = refusedIn s.history

end Sys2Proof.Machine
end

