-- ==== Sys2Proof/Certificates/Slice0/Obligations.lean ====
section
/-! DEFINITION. The statements for the provers. Each docstring names the rule of the spec it formalises. -/

open Sys2Proof Sys2Proof.Machine

/-! ### Encoding -/

/-- 95_test_vectors.md section 6: the words written out there decode as the table says. -/
def Obligations.SampleWordsDecodeAsTheSpecWritesThem : Prop :=
  decode 0b0000000000#10 = .ok (.rxb 0x00#8)
  ∧ decode 0b0011111111#10 = .ok (.rxb 0xFF#8)
  ∧ decode 0b0010000000#10 = .ok (.rxb 0x80#8)
  ∧ decode 0b0100000000#10 = .ok .mix
  ∧ decode 0b0100000001#10 = .error (.reservedWord 0x101#10)
  ∧ decode 0b1000000000#10 = .ok .rst
  ∧ decode 0b1100000000#10 = .error (.reservedWord 0x300#10)

/-- R76, R77, R78, R80: the decoder of words, total on all 1024 values, said by the numbers of the words. -/
def Obligations.DecoderClassifiesEveryWord : Prop :=
  ∀ w : OpWord,
    (w.toNat ≤ 0x0FF → decode w = .ok (.rxb (BitVec.ofNat 8 w.toNat)))
    ∧ (∀ b : Byte, decode w = .ok (.rxb b) → w.toNat = b.toNat)
    ∧ (decode w = .ok .mix ↔ w.toNat = 0x100)
    ∧ (decode w = .ok .rst ↔ w.toNat = 0x200)
    ∧ ((0x101 ≤ w.toNat ∧ w.toNat ≤ 0x1FF) ∨ (0x201 ≤ w.toNat ∧ w.toNat ≤ 0x2FF) ∨ 0x300 ≤ w.toNat
        ↔ decode w = .error (.reservedWord w))

/-- R75 to R78: decode and encode agree, for one operation and for a program of words: a list of words decodes to a list
of operations exactly when it is their encoding, so no bit of a word is dropped. -/
def Obligations.DecodeAndEncodeAgreeOnPrograms : Prop :=
  (∀ i : Instr, i.wellFormed = true → decode (encode i) = .ok i)
  ∧ ∀ (ws : List OpWord) (is : List Instr), ws.mapM decode = .ok is ↔ ws = is.map encode

/-! ### The port and the step -/

/-- R6, R75: a step takes the word at the front of the port and runs the operation it encodes; the only thing the step does
beside it is to take the word. -/
def Obligations.StepRunsTheDecodedOperation : Prop :=
  ∀ (s : State) (w : OpWord) (ws : List OpWord) (i : Instr),
    s.input = w :: ws → decode w = .ok i → i.wellFormed = true →
      step s = exec i { s with input := ws }

/-- R63 and the model's choice of log entry 2: with no word at the port the block waits and nothing changes. -/
def Obligations.EmptyPortLeavesTheStateAlone : Prop :=
  ∀ s : State, s.input = [] → step s = .next s

/-- R162 with log entry 3: a reserved word changes no hardware state, sets the sticky mark and is recorded. -/
def Obligations.ReservedWordIsRefusedAndRecorded : Prop :=
  ∀ (s : State) (w : OpWord) (ws : List OpWord),
    s.input = w :: ws →
    ((0x101 ≤ w.toNat ∧ w.toNat ≤ 0x1FF) ∨ (0x201 ≤ w.toNat ∧ w.toNat ≤ 0x2FF) ∨ 0x300 ≤ w.toNat) →
      step s = .next { s with refused := true, history := s.history ++ [.refusal w], input := ws }

/-- R163: no state is terminal and none is stuck: every operation completes in every state. That every step answers a next
state too is the model's where the port gives it no operation: at an empty port, where R63 gives no step (log entry 2), and at
a reserved word (log entry 3). -/
def Obligations.NoStateIsTerminalOrStuck : Prop :=
  (∀ (i : Instr) (s : State), ∃ t, exec i s = .next t) ∧ ∀ s : State, ∃ t, step s = .next t

/-- R62, R114, R174: as many steps as there are words at the port consume them all, and the operations accepted are the
ones the words encode, in order, none twice and none left out. The port's queue is the model's (log entry 1). -/
def Obligations.PortWordsAreConsumedInOrder : Prop :=
  ∀ s : State, ∃ t, runSteps s.input.length s = .next t ∧ t.input = []
    ∧ acceptedOf t.history = acceptedOf s.history ++ operationsOf s.input

/-- R6, R57, R75: running the words of a program from the port is the same as running its operations one after the other,
for every program. The queue that holds the words is the model's (log entry 1). -/
def Obligations.RunningWordsEqualsRunningOperations : Prop :=
  ∀ (is : List Instr) (s : State), s.input = [] →
    runSteps is.length { s with input := is.map encode } = execAll is s

/-- R75: an operation's word put at the front of the port is what the next step runs, whatever waits behind it, and the
decoder of a table row's word gives it back. The queue and its ten lines are the model's (log entries 1 and 12). -/
def Obligations.FetchWordRunsNext : Prop :=
  ∀ (i : Instr) (s : State),
    decodeTableWord 16 (encode i).toNat = some i ∧ step (s.withFetchWord 16 (encode i).toNat) = exec i s

/-! ### RXB, case by case -/

/-- R103: scanning, and the byte completes no marker: only `prev_byte` changes. -/
def Obligations.RxbIdleOnlyUpdatesPrevByte : Prop :=
  ∀ (s : State) (b : Byte), s.reading = false → ¬ (s.prevByte = 0x00#8 ∧ b = 0xFF#8) →
    exec (.rxb b) s = .next { s with prevByte := b, history := s.history ++ [.accepted (.rxb b)] }

/-- R104: scanning, and the byte completes a marker: a frame starts at position 0. -/
def Obligations.RxbStartEntersTheFrame : Prop :=
  ∀ s : State, s.reading = false → s.prevByte = 0x00#8 →
    exec (.rxb 0xFF#8) s = .next { s with
      position := 0#3, reading := true, prevByte := 0xFF#8
      history := s.history ++ [.accepted (.rxb 0xFF#8)] }

/-- R105: inside a frame, before the trailer, a byte that completes no marker is appended at `position`; every other
byte of PAY reads as before. -/
def Obligations.RxbAppendStoresAtPosition : Prop :=
  ∀ (s : State) (b : Byte), s.reading = true → s.position.toNat < 6 →
    ¬ (s.prevByte = 0x00#8 ∧ b = 0xFF#8) →
    ∃ t, exec (.rxb b) s = .next t
      ∧ t = { s with
          payload := t.payload, position := s.position + 1#3, prevByte := b
          history := s.history ++ [.accepted (.rxb b)] }
      ∧ t.position.toNat = s.position.toNat + 1
      ∧ memRead t s.position.toNat = .ok b
      ∧ ∀ a, a ≠ s.position.toNat → memRead t a = memRead s a

/-- R106: inside a frame, before the trailer, a marker restarts the frame; nothing is appended, published or reported. -/
def Obligations.RxbRestartDiscardsThePartialFrame : Prop :=
  ∀ s : State, s.reading = true → s.position.toNat < 6 → s.prevByte = 0x00#8 →
    exec (.rxb 0xFF#8) s = .next { s with
      position := 0#3, prevByte := 0xFF#8
      history := s.history ++ [.accepted (.rxb 0xFF#8)] }

/-- R107, R111, R112, R113: the trailer, whatever the byte. When it equals the sum mod 256 of the six payload bytes, the
first two are published; otherwise valid is cleared, x and y stay and one record with the observed and the expected byte is
emitted. In both, PAY stays, reading ends and `position` stays at 6, unless the byte also completes a marker: then rule R108
follows and a frame starts. The order of the events within the step is the model's (log entry 4). -/
def Obligations.RxbTrailerValidatesTheFrame : Prop :=
  ∀ (s : State) (b e : Byte), s.reading = true → s.position = 6#3 →
    e.toNat = ((s.payload.read 0).toNat + (s.payload.read 1).toNat + (s.payload.read 2).toNat
      + (s.payload.read 3).toNat + (s.payload.read 4).toNat + (s.payload.read 5).toNat) % 256 →
    let marked : Bool := decide (s.prevByte = 0x00#8 ∧ b = 0xFF#8)
    exec (.rxb b) s =
      if b = e then
        .next { s with
          sampleX := s.payload.read 0, sampleY := s.payload.read 1, sampleValid := true
          reading := marked, position := if marked then 0#3 else 6#3, prevByte := b
          history := s.history ++ [.accepted (.rxb b),
            .published (some (s.payload.read 0)) (some (s.payload.read 1)) true] }
      else
        .next { s with
          sampleValid := false
          diagLog := s.diagLog ++ [{ code := 0x01#8, observed := b, expected := e }]
          reading := marked, position := if marked then 0#3 else 6#3, prevByte := b
          history := s.history ++ [.accepted (.rxb b), .published none none false,
            .diagnosed { code := 0x01#8, observed := b, expected := e }] }

/-- R108: a byte that is both the trailer and a marker's second byte. WMFD validates, then starts a frame. The parameter
value restart_only starts one without validation; validate_only validates and starts none. The order of the events within the
step is the model's (log entry 4). -/
def Obligations.TrailerThatCompletesAMarker : Prop :=
  ∀ (s : State) (e : Byte), s.reading = true → s.position = 6#3 → s.prevByte = 0x00#8 →
    e.toNat = ((s.payload.read 0).toNat + (s.payload.read 1).toNat + (s.payload.read 2).toNat
      + (s.payload.read 3).toNat + (s.payload.read 4).toNat + (s.payload.read 5).toNat) % 256 →
    let validated : State :=
      if e = 0xFF#8 then
        { s with
          sampleX := s.payload.read 0, sampleY := s.payload.read 1, sampleValid := true, prevByte := 0xFF#8
          history := s.history ++ [.accepted (.rxb 0xFF#8),
            .published (some (s.payload.read 0)) (some (s.payload.read 1)) true] }
      else
        { s with
          sampleValid := false, prevByte := 0xFF#8
          diagLog := s.diagLog ++ [{ code := 0x01#8, observed := 0xFF#8, expected := e }]
          history := s.history ++ [.accepted (.rxb 0xFF#8), .published none none false,
            .diagnosed { code := 0x01#8, observed := 0xFF#8, expected := e }] }
    exec (.rxb 0xFF#8) s = .next { validated with position := 0#3, reading := true }
    ∧ rxbWith { Config.wmfd with trailerMarkerMode := .validateThenRestart } 0xFF#8 s
        = .next { validated with position := 0#3, reading := true }
    ∧ rxbWith { Config.wmfd with trailerMarkerMode := .restartOnly } 0xFF#8 s
        = .next { s with
            position := 0#3, reading := true, prevByte := 0xFF#8
            history := s.history ++ [.accepted (.rxb 0xFF#8)] }
    ∧ rxbWith { Config.wmfd with trailerMarkerMode := .validateOnly } 0xFF#8 s
        = .next { validated with reading := false }

/-- R109: every RXB ends with `prev_byte` holding its byte, whatever the case and the parameters. -/
def Obligations.EveryRxbLeavesItsByteInPrevByte : Prop :=
  (∀ (b : Byte) (s : State), ∃ t, exec (.rxb b) s = .next t ∧ t.prevByte = b)
  ∧ ∀ (p : Config.Params) (b : Byte) (s : State), ∃ t, rxbWith p b s = .next t ∧ t.prevByte = b

/-- R110: the checksum is the sum of the six unsigned bytes reduced mod 256 once, which equals reducing after each
addition; the unreduced sum fits an 11-bit adder; the comparison with the trailer is an equality of bytes. -/
def Obligations.ChecksumIsTheSumMod256 : Prop :=
  ∀ s : State, ∃ e : Byte, checksum s = .ok e
    ∧ (let sum := (s.payload.read 0).toNat + (s.payload.read 1).toNat + (s.payload.read 2).toNat
        + (s.payload.read 3).toNat + (s.payload.read 4).toNat + (s.payload.read 5).toNat
      e.toNat = sum % 256 ∧ sum ≤ 1530 ∧ sum < 2 ^ 11)
    ∧ e = s.payload.read 0 + s.payload.read 1 + s.payload.read 2 + s.payload.read 3 + s.payload.read 4
        + s.payload.read 5
    ∧ ∀ b : Byte, b = e ↔ b.toNat = e.toNat

/-- R117: what RXB writes and reads, for every value of the parameters. The outputs, `mix_partial`, the refused mark and the
port stay, and `pub_pending` too when ATOMIC_PUBLISH is true; and two states that agree on the decoder's part, however they
differ elsewhere, agree on it after. -/
def Obligations.RxbStaysInsideTheDecoder : Prop :=
  ∀ (p : Config.Params) (b : Byte) (s s' : State), ∃ t t',
    rxbWith p b s = .next t ∧ rxbWith p b s' = .next t'
    ∧ t.outputs = s.outputs ∧ t.mixPartial = s.mixPartial ∧ t.refused = s.refused ∧ t.input = s.input
    ∧ (p.atomicPublish = true → t.pubPending = s.pubPending)
    ∧ (s.decoderView = s'.decoderView → t.decoderView = t'.decoderView)

/-! ### Streams and frames -/

/-- R106, R108 with 95_test_vectors.md W8: feeding 0x00, 0xFF restarts frame accumulation from zero in every state
whatever, and never touches the outputs. -/
def Obligations.MarkerResynchronisesEveryState : Prop :=
  ∀ s : State, ∃ t, execAll (feed [0x00#8, 0xFF#8]) s = .next t
    ∧ t.reading = true ∧ t.position = 0#3 ∧ t.prevByte = 0xFF#8 ∧ t.outputs = s.outputs

/-- R116, R70, R72 with 95_test_vectors.md W7: from every state, a frame whose payload holds no interior marker is decoded
as sent. After its marker and payload the trailer decides: it publishes the first two bytes if it is the sum mod 256, else
it clears valid, keeps x and y and adds one record. -/
def Obligations.FrameDecodesAsSentFromEveryState : Prop :=
  ∀ (s : State) (p : Payload) (c : Byte), hasMarker p.bytes = false →
    ∃ u t, execAll (feed [0x00#8, 0xFF#8]) s = .next u
      ∧ execAll (feed (p.bytes ++ [c])) u = .next t
      ∧ execAll (feed (frameBytes p c)) s = .next t
      ∧ payloadPrefix t 6 = p.bytes
      ∧ t.prevByte = c
      ∧ t.outputs = s.outputs
      ∧ (c = p.checksum → t.sampleX = p.p0 ∧ t.sampleY = p.p1 ∧ t.sampleValid = true ∧ t.diagLog = u.diagLog)
      ∧ (c ≠ p.checksum → t.sampleX = u.sampleX ∧ t.sampleY = u.sampleY ∧ t.sampleValid = false
          ∧ t.diagLog = u.diagLog ++ [{ code := 0x01#8, observed := c, expected := p.checksum }])

/-- R116, the other direction: a step that publishes a passing sample ends a frame. The stream since reset ends with a
marker, six bytes that hold no marker among them, and their sum mod 256; and what is published is the first two. -/
def Obligations.PassingPublishNeedsAWholeFrame : Prop :=
  ∀ (s t : State) (b x y : Byte), s.FrameInv → exec (.rxb b) s = .next t →
    Event.published (some x) (some y) true ∈ t.history.drop s.history.length →
    ∃ (pre : List Byte) (p : Payload),
      bytesSinceReset t.history = pre ++ frameBytes p b
      ∧ hasMarker p.bytes = false ∧ b = p.checksum ∧ x = p.p0 ∧ y = p.p1

/-- R103, R193 with 95_test_vectors.md W9: after any run from power-on reset, if the stream since the last reset holds no
marker, no frame is being read and the sample has its reset value, whatever operations came. -/
def Obligations.NoMarkerNoFrame : Prop :=
  ∀ (is : List Instr) (t : State), execAll is State.reset = .next t →
    hasMarker (bytesSinceReset t.history) = false →
    t.reading = false ∧ t.sampleX = 0x00#8 ∧ t.sampleY = 0x00#8 ∧ t.sampleValid = false

/-- R118: the decoder's state, the sample and the diagnostic channel after a run depend on the bytes (and resets) alone:
leaving out every MIX of the run changes none of them. -/
def Obligations.MixStepsNeverAffectTheDecoder : Prop :=
  ∀ (is : List Instr) (s : State), ∃ t u,
    execAll is s = .next t ∧ execAll (is.filter (fun i => i ≠ .mix)) s = .next u
    ∧ t.decoderView = u.decoderView

/-- R193, R21: every PREV_RESET other than 0x00 gives the same behaviour. Two blocks whose parameters differ only there, each
run from its own power-on state over the same operations (RST among them), or under the same moves over the same words of
the port, whatever the other parameters are, end in states that agree on everything but `prev_byte`, and on that too as soon
as a byte has been consumed since the last reset. -/
def Obligations.NonzeroPrevResetValuesAreEquivalent : Prop :=
  ∀ (p : Config.Params) (r : Byte), p.prevReset ≠ 0x00#8 → r ≠ 0x00#8 →
    let q : Config.Params := { p with prevReset := r }
    let alike : State → State → Prop := fun t u =>
      u = { t with prevByte := u.prevByte } ∧ (bytesSinceReset t.history ≠ [] → u.prevByte = t.prevByte)
    (∀ is : List Instr, ∃ t u,
      execAllWith p is (State.resetWith p) = .next t ∧ execAllWith q is (State.resetWith q) = .next u ∧ alike t u)
    ∧ ∀ (mvs : List Move) (ws : List OpWord), ∃ t u,
      runWith p mvs { State.resetWith p with input := ws } = .next t
      ∧ runWith q mvs { State.resetWith q with input := ws } = .next u ∧ alike t u

/-! ### MIX -/

/-- R130: the whole of MIX. The arithmetic is written out over the integers. A sample that is not valid leaves the outputs;
a valid one drives both motors; nothing else changes but the history. The order of the events within the step, motor A before
motor B among them, is the model's (log entry 4). -/
def Obligations.MixDrivesBothMotors : Prop :=
  ∀ s : State,
    (s.sampleValid = false → exec .mix s = .next { s with
        history := s.history ++ [.accepted .mix, .snapshot s.sampleX s.sampleY false] })
    ∧ (s.sampleValid = true →
      let dy : Int := s.sampleY.toNat - 128
      let dx : Int := s.sampleX.toNat - 128
      let spA : Int := Int.tdiv (24 * dy - 15 * dx) 20
      let spB : Int := Int.tdiv (24 * dy + 15 * dx) 20
      ∃ dA uA dB uB,
        exec .mix s = .next { s with
          dirA := dA, dutyA := uA, dirB := dB, dutyB := uB
          history := s.history ++ [.accepted .mix, .snapshot s.sampleX s.sampleY true,
            .drove .a dA uA, .drove .b dB uB] }
        ∧ (dA = .reverse ↔ spA < 0) ∧ uA.toNat = min 99 spA.natAbs
        ∧ (dB = .reverse ↔ spB < 0) ∧ uB.toNat = min 99 spB.natAbs)

/-- R134, R135, R136: the integers MIX computes are the exact rational rules. Each scaled speed is twenty times the mix of
the axes with the gains 6/5 and 3/4, and each integer speed is that rational rounded toward zero. -/
def Obligations.MixTruncatesTheExactRationalSpeed : Prop :=
  ∀ sx sy : Byte,
    let adjY : ℚ := ((sy.toNat : ℚ) - 128) * (6 / 5)
    let adjX : ℚ := ((sx.toNat : ℚ) - 128) * (3 / 4)
    ((scaledSpeed .a sx sy : ℚ) = 20 * (adjY - adjX) ∧ speedFinal .a sx sy = truncRat (adjY - adjX))
    ∧ ((scaledSpeed .b sx sy : ℚ) = 20 * (adjY + adjX) ∧ speedFinal .b sx sy = truncRat (adjY + adjX))

/-- R136, R137, R138: the other two values of SPEED_QUANT. trunc_axes truncates each adjusted axis and then mixes, and drives
the sign and the clamped magnitude of that speed; exact_sign drives the sign of the exact speed and the clamped floor of its
magnitude. A MIX of a block with either value drives both motors so when the sample is valid, and leaves the outputs when it
is not; nothing else changes but the history, in which the order of one step's events is the model's (log entry 4). -/
def Obligations.OtherQuantisationsFollowTheirRules : Prop :=
  ∀ (p : Config.Params) (s : State),
    let axes : Motor → Int := fun m =>
      match m with
      | .a => truncRat (adjustedY s.sampleY) - truncRat (adjustedX s.sampleX)
      | .b => truncRat (adjustedY s.sampleY) + truncRat (adjustedX s.sampleX)
    let driven : State → Motor → Direction × Duty := fun t m =>
      match m with
      | .a => (t.dirA, t.dutyA)
      | .b => (t.dirB, t.dutyB)
    ∃ t, mixWith p s = .next t
      ∧ (s.sampleValid = false → t = { s with
          history := s.history ++ [.accepted .mix, .snapshot s.sampleX s.sampleY false] })
      ∧ (s.sampleValid = true →
        t = { s with
          dirA := t.dirA, dutyA := t.dutyA, dirB := t.dirB, dutyB := t.dutyB
          history := s.history ++ [.accepted .mix, .snapshot s.sampleX s.sampleY true,
            .drove .a t.dirA t.dutyA, .drove .b t.dirB t.dutyB] }
        ∧ ∀ m : Motor,
          (p.speedQuant = .truncAxes →
            ((driven t m).1 = .reverse ↔ axes m < 0) ∧ (driven t m).2.toNat = min 99 (axes m).natAbs)
          ∧ (p.speedQuant = .exactSign →
            ((driven t m).1 = .reverse ↔ exactSpeed m s.sampleX s.sampleY < 0)
            ∧ (driven t m).2.toNat = min 99 ⌊|exactSpeed m s.sampleX s.sampleY|⌋.natAbs))

/-- R133, R135, R136, R142, R144: the ranges of every value of the datapath, the speeds' bounds reached. -/
def Obligations.MixDatapathRanges : Prop :=
  (∀ sx sy : Byte,
    (-128 ≤ centred sy ∧ centred sy ≤ 127) ∧ (-3072 ≤ 24 * centred sy ∧ 24 * centred sy ≤ 3048)
    ∧ (-1920 ≤ 15 * centred sx ∧ 15 * centred sx ≤ 1905)
    ∧ (-4977 ≤ scaledSpeed .a sx sy ∧ scaledSpeed .a sx sy ≤ 4968)
    ∧ (-4992 ≤ scaledSpeed .b sx sy ∧ scaledSpeed .b sx sy ≤ 4953)
    ∧ (-248 ≤ speedFinal .a sx sy ∧ speedFinal .a sx sy ≤ 248)
    ∧ (-249 ≤ speedFinal .b sx sy ∧ speedFinal .b sx sy ≤ 247))
  ∧ (∃ sx sy, speedFinal .a sx sy = 248) ∧ (∃ sx sy, speedFinal .a sx sy = -248)
  ∧ (∃ sx sy, speedFinal .b sx sy = 247) ∧ ∃ sx sy, speedFinal .b sx sy = -249

/-- R133, R142: the hardware datapath never overflows. Centring by inverting the byte's top bit and computing nA and nB in
14-bit two's complement gives the integers of the rules. -/
def Obligations.FourteenBitDatapathIsExact : Prop :=
  ∀ sx sy : Byte,
    let dy : BitVec 14 := (sy ^^^ 0x80#8).signExtend 14
    let dx : BitVec 14 := (sx ^^^ 0x80#8).signExtend 14
    dy.toInt = centred sy ∧ dx.toInt = centred sx
    ∧ (24#14 * dy - 15#14 * dx).toInt = scaledSpeed .a sx sy
    ∧ (24#14 * dy + 15#14 * dx).toInt = scaledSpeed .b sx sy

/-- R137, R138: the clamp and the direction, for every integer speed; zero is forward. The speeds that MIX computes have a
magnitude of at most 249, which fits 8 bits. -/
def Obligations.ClampAndDirectionOfASpeed : Prop :=
  (∀ sp : Int,
    (magOf sp).toNat = min 99 sp.natAbs ∧ (magOf sp).toNat ≤ 99
    ∧ (sp < 0 → (dirOf sp).toBit = 1#1) ∧ (0 ≤ sp → (dirOf sp).toBit = 0#1))
  ∧ ∀ (m : Motor) (sx sy : Byte), (speedFinal m sx sy).natAbs ≤ 249 ∧ (speedFinal m sx sy).natAbs < 2 ^ 8

/-- R143: a valid MIX drives a motor at duty 99 exactly when its scaled speed reaches 1980 in magnitude. -/
def Obligations.DutySaturatesExactlyFrom1980 : Prop :=
  ∀ s : State, s.sampleValid = true → ∃ t, exec .mix s = .next t
    ∧ (t.dutyA = 99#7 ↔ 1980 ≤ (scaledSpeed .a s.sampleX s.sampleY).natAbs)
    ∧ (t.dutyB = 99#7 ↔ 1980 ≤ (scaledSpeed .b s.sampleX s.sampleY).natAbs)

/-- R140: for a valid sample, the four values driven are a function of x and y alone: states that agree on these and
differ in anything else drive the same. -/
def Obligations.DrivenValuesDependOnTheSampleAlone : Prop :=
  ∀ s s' : State, s.sampleValid = true → s'.sampleValid = true →
    s.sampleX = s'.sampleX → s.sampleY = s'.sampleY →
    ∃ t t', exec .mix s = .next t ∧ exec .mix s' = .next t' ∧ t.outputs = t'.outputs

/-- R141, R29: MIX writes only the output registers (and the history), and two MIX with no publish between them drive the
same, whatever operations stand between: bytes that publish nothing, further MIX. An RST writes the sample as a group, which
the history records as a publish (log entry 4). -/
def Obligations.MixStaysInsideTheMixer : Prop :=
  ∀ (s : State) (is : List Instr), ∃ t v u,
    exec .mix s = .next t ∧ execAll is t = .next v ∧ exec .mix v = .next u
    ∧ t = { s with
        dirA := t.dirA, dutyA := t.dutyA, dirB := t.dirB, dutyB := t.dutyB, history := t.history }
    ∧ ((∀ x y valid, Event.published x y valid ∉ v.history.drop t.history.length) → u.outputs = t.outputs)

/-- R198, R132, R115: bytes alone, noise or none, leave the outputs at the last values driven; and if they leave the sample
not valid, so does any number of MIX after them. There is no timeout. -/
def Obligations.HeldCommandSurvivesNoise : Prop :=
  ∀ (s : State) (bs : List Byte) (n : Nat), ∃ t u,
    execAll (feed bs) s = .next t ∧ t.outputs = s.outputs
    ∧ execAll (List.replicate n .mix) t = .next u ∧ (t.sampleValid = false → u.outputs = s.outputs)

/-! ### Reset -/

/-- R190: the elements after power-on reset and after RST, one by one; `diag_log` and the refused mark are empty and 0 at
power-on and unchanged by RST. -/
def Obligations.ResetStateIsAsListed : Prop :=
  let listed : State → Prop := fun t =>
    t.prevByte = 0xFF#8 ∧ t.reading = false ∧ t.position = 0#3
    ∧ (∀ a, a < 6 → memRead t a = .ok 0x00#8)
    ∧ t.sampleX = 0x00#8 ∧ t.sampleY = 0x00#8 ∧ t.sampleValid = false
    ∧ t.dirA.toBit = 0#1 ∧ t.dirB.toBit = 0#1 ∧ t.dutyA = 0#7 ∧ t.dutyB = 0#7
    ∧ t.pubPending = [] ∧ t.mixPartial = PartialSnapshot.empty
  (listed State.reset ∧ State.reset.diagLog = [] ∧ State.reset.refused = false)
  ∧ ∀ s : State, ∃ t, exec .rst s = .next t ∧ listed t ∧ t.diagLog = s.diagLog ∧ t.refused = s.refused

/-- R191: RST in every state. The elements take their reset values, the sample by a write of the whole group; `diag_log`, the
refused mark and the port stay. Power-on reset has the same effect and also empties `diag_log` and clears the mark. What
becomes of the history, the order of its events within the step, and the port are the model's (log entries 4, 5 and 1). -/
def Obligations.RstRestoresTheResetElements : Prop :=
  ∀ s : State, ∃ t, exec .rst s = .next t
    ∧ t = { State.reset with
        diagLog := s.diagLog, refused := s.refused, input := s.input
        history := s.history ++ [.accepted .rst, .published (some 0x00#8) (some 0x00#8) false] }
    ∧ powerOn Config.wmfd s = { t with
        diagLog := [], refused := false
        history := (powerOn Config.wmfd s).history, input := (powerOn Config.wmfd s).input }

/-! ### Invariants and who writes what -/

/-- R25, R28, R37, R190, R193: the invariants below hold right after power-on reset. Three parts are the model's: that PAY is in
canonical form speaks of the model's own form of PAY (log entry 6), and the clauses about the history rest on its shape (log
entry 4) and on its being empty in the reset state (log entry 5). -/
def Obligations.ResetMeetsTheInvariants : Prop :=
  State.reset.payload.wf ∧ State.reset.FrameInv ∧ State.reset.HistoryInv ∧ State.reset.NoMarkerInv
  ∧ State.reset.nothingInFlight ∧ State.reset.dutiesInRange

/-- The model's own form of PAY (log entry 6): every step keeps its canonical form. -/
def Obligations.EveryStepKeepsPayCanonical : Prop :=
  ∀ s t : State, s.payload.wf → step s = .next t → t.payload.wf

/-- R25 (I1 to I4), R21, R116: every step keeps the frame invariant, from every state that meets it. -/
def Obligations.EveryStepKeepsTheFrameInvariant : Prop :=
  ∀ s t : State, s.FrameInv → step s = .next t → t.FrameInv

/-- R103, R193, R21 with 95_test_vectors.md W9: every step keeps it true that without a marker since the last reset no frame is
being read and the sample has its reset value, with the previous byte the stream's last. -/
def Obligations.EveryStepKeepsNoFrameWithoutMarker : Prop :=
  ∀ s t : State, s.NoMarkerInv → step s = .next t → t.NoMarkerInv

/-- R58, R27, R28, R30, R38: at every step the sample is the last publish, the outputs the last commands, the diagnostic
channel the records emitted and the mark the refusals, as the history tells them. The history's events and their order within
a step are the model's (log entry 4). -/
def Obligations.EveryStepKeepsTheHistoryTrue : Prop :=
  ∀ s t : State, s.HistoryInv → step s = .next t → t.HistoryInv

/-- R28: the duty registers always hold a value in 0..99. -/
def Obligations.EveryStepKeepsDutiesInRange : Prop :=
  ∀ s t : State, s.dutiesInRange → step s = .next t → t.dutiesInRange

/-- R37: nothing is ever in flight in WMFD, since ATOMIC_PUBLISH is true. -/
def Obligations.EveryStepKeepsNothingInFlight : Prop :=
  ∀ s t : State, s.nothingInFlight → step s = .next t → t.nothingInFlight

/-- R38, R162: the refused mark is sticky, and a step sets it exactly when the word taken is reserved. -/
def Obligations.RefusedIsStickyAndOnlyReservedWordsSetIt : Prop :=
  ∀ s t : State, step s = .next t →
    (t.refused = true ↔ s.refused = true ∨ ∃ w ws, s.input = w :: ws ∧ w.reserved = true)

/-- R30, R113, R161: a step that is a failing trailer appends exactly one mismatch record, with the byte received and the
checksum of the payload; every other step appends none. -/
def Obligations.ExactlyFailingTrailersAddARecord : Prop :=
  ∀ s t : State, step s = .next t →
    let failing : Byte → Byte → Prop := fun b e =>
      (∃ ws, s.input = encode (.rxb b) :: ws) ∧ s.reading = true ∧ s.position = 6#3 ∧ checksum s = .ok e ∧ b ≠ e
    (∀ b e, failing b e → t.diagLog = s.diagLog ++ [{ code := 0x01#8, observed := b, expected := e }])
    ∧ ((¬ ∃ b e, failing b e) → t.diagLog = s.diagLog)

/-- R26, R27: apart from reset, only a trailer changes the sample; x and y change only when it passes, to the payload's
first two bytes. -/
def Obligations.OnlyTrailersAndResetWriteTheSample : Prop :=
  ∀ s t : State, step s = .next t → readSample t ≠ readSample s →
    (∃ ws, s.input = encode .rst :: ws ∧ readSample t = { x := 0x00#8, y := 0x00#8, valid := false })
    ∨ ∃ (b e : Byte) (ws : List OpWord), s.input = encode (.rxb b) :: ws ∧ s.reading = true ∧ s.position = 6#3
      ∧ checksum s = .ok e
      ∧ readSample t = if b = e then { x := s.payload.read 0, y := s.payload.read 1, valid := true }
          else { x := s.sampleX, y := s.sampleY, valid := false }

/-- R28, R132: apart from reset, only a MIX on a valid sample changes the outputs. -/
def Obligations.OnlyValidMixAndResetWriteTheOutputs : Prop :=
  ∀ s t : State, step s = .next t → t.outputs ≠ s.outputs →
    (∃ ws, s.input = encode .rst :: ws ∧ t.outputs = Outputs.reset)
    ∨ ∃ ws, s.input = encode .mix :: ws ∧ s.sampleValid = true

/-- R30, R31, R38: no rule reads `diag_log`, the refused mark or the history. Whatever they hold, an operation does the same
to everything else, and only appends to the two sequences. -/
def Obligations.NoOperationReadsTheBookkeeping : Prop :=
  ∀ (i : Instr) (s : State), ∃ (t : State) (ds : List DiagRecord) (es : List Event), exec i s = .next t
    ∧ t.diagLog = s.diagLog ++ ds ∧ t.history = s.history ++ es
    ∧ ∀ (d : List DiagRecord) (h : List Event) (r : Bool),
        exec i { s with diagLog := d, history := h, refused := r }
          = .next { t with diagLog := d ++ ds, history := h ++ es, refused := r }

/-! ### PAY and the checksum's strength -/

/-- R50, R51: a byte stored in PAY at 0..5 reads back and leaves the other addresses and all other state; outside 0..5 a read
and a write fault (the model's choice that R51 allows, log entry 6). -/
def Obligations.PayReadsBackWhatIsWritten : Prop :=
  ∀ (s : State) (a : Nat) (v : Byte),
    (a ≤ 5 → ∃ t, memWrite s a v = .ok t ∧ memRead t a = .ok v
      ∧ (∀ b, b ≠ a → memRead t b = memRead s b) ∧ t = { s with payload := t.payload })
    ∧ (6 ≤ a → memRead s a = .error (.payOutOfRange a) ∧ memWrite s a v = .error (.payOutOfRange a))

/-- R197: what the checksum does not detect: any reordering of the bytes, and k added to one byte and taken from another. -/
def Obligations.ChecksumMissesReorderingAndCompensation : Prop :=
  (∀ bs cs : List Byte, bs.Perm cs → sumMod256 bs = sumMod256 cs)
  ∧ (∀ (pre mid post : List Byte) (a b k : Byte),
      sumMod256 (pre ++ (a + k) :: mid ++ (b - k) :: post) = sumMod256 (pre ++ a :: mid ++ b :: post))
  ∧ ∀ bs cs : List Byte, (∃ n, (cs.map BitVec.toNat).sum = (bs.map BitVec.toNat).sum + 256 * n) →
      sumMod256 bs = sumMod256 cs

/-! ### The relaxed handoff and the parametric block -/

/-- R8: with WMFD's parameters the parametric block is WMFD, whatever move is offered. -/
def Obligations.ParametricBlockAtWmfdIsWmfd : Prop :=
  ∀ (mv : Move) (s : State), stepWith Config.wmfd mv s = step s

/-- R59: with ATOMIC_PUBLISH = false a trailer leaves the sample alone and places its writes in `pub_pending` in the order
x, y, valid (or valid alone on a fail). The decoder then performs them one a turn, in that order, and takes no byte meanwhile:
after `k` of its turns the first `k` are done, the others are still pending and the words at the port are the same. -/
def Obligations.RelaxedTrailerPublishesFieldByField : Prop :=
  ∀ (s : State) (b e : Byte) (ws : List OpWord),
    s.input = encode (.rxb b) :: ws → s.pubPending = [] → s.reading = true → s.position = 6#3 → checksum s = .ok e →
    let writes : List FieldWrite :=
      if b = e then [.x (s.payload.read 0), .y (s.payload.read 1), .valid true] else [.valid false]
    ∃ t, stepWith relaxedParams .decoder s = .next t ∧ t.input = ws ∧ readSample t = readSample s
      ∧ t.pubPending = writes
      ∧ ∀ k, k ≤ writes.length → ∃ u, runWith relaxedParams (List.replicate k .decoder) t = .next u
        ∧ u.pubPending = writes.drop k ∧ u.input = ws
        ∧ readSample u = if b = e then
            { x := if 1 ≤ k then s.payload.read 0 else s.sampleX
              y := if 2 ≤ k then s.payload.read 1 else s.sampleY
              valid := if 3 ≤ k then true else s.sampleValid }
          else { x := s.sampleX, y := s.sampleY, valid := if 1 ≤ k then false else s.sampleValid }

/-- R59, R55: a relaxed MIX that no write interrupts drives what the atomic MIX drives, in each of the six orders of its
three reads, and leaves `mix_partial` empty. The moves are the model's (log entry 9). -/
def Obligations.RelaxedMixAgreesInEveryReadOrder : Prop :=
  ∀ (s : State) (ws : List OpWord) (f g h l : SampleField),
    s.input = encode .mix :: ws → s.mixPartial = PartialSnapshot.empty → f ≠ g → g ≠ h → f ≠ h →
    ∃ t, runWith relaxedParams [.mixer f, .mixer g, .mixer h, .mixer l] s = .next t
      ∧ exec .mix { s with input := ws } = .next t ∧ t.mixPartial = PartialSnapshot.empty

/-- R59, R195 with 95_test_vectors.md H-1: in the relaxed mode a torn snapshot is reachable from reset, in a completed run
(R37): a MIX drives an x and a y that no frame of the run carried together. That a schedule of moves is one of the hardware's
runs rests on log entry 9. -/
def Obligations.RelaxedModeAdmitsATornSnapshot : Prop :=
  ∃ (ws : List OpWord) (mvs : List Move) (t : State),
    assemble [.frame [0x0A, 0x14, 0x1E, 0x28, 0x32, 0x3C], .frame [0x1E, 0x28, 0, 0, 0, 0], .mix] = some ws
    ∧ completedRun relaxedParams mvs { State.reset with input := ws } = some t
    ∧ Event.snapshot 0x0A#8 0x28#8 true ∈ t.history ∧ Event.drove .a .reverse 17#7 ∈ t.history

/-- R174, R37, R114, R59: in the relaxed mode every fair run ends. From every state, under every fair schedule, there is a point
from which on the port is empty, nothing is pending, no MIX is in progress and nothing changes; so every pending write and
every started MIX is completed (or discarded by an RST of the run), and the operations accepted are those of the port's words,
in order. The port's queue, the moves and the form of fairness are the model's (log entries 1, 9 and 15). -/
def Obligations.FairRelaxedRunsComplete : Prop :=
  ∀ (p : Config.Params) (σ : Schedule) (s : State), p.atomicPublish = false → σ.fair p s →
    ∃ n t, (∀ m, n ≤ m → σ.outcomeAt p s m = .next t)
      ∧ t.input = [] ∧ t.runOver = true ∧ completedRun p ((List.range n).map σ) s = some t
      ∧ acceptedOf t.history = acceptedOf s.history ++ operationsOf s.input

/-- R58, R54: in WMFD a snapshot is never torn: what a MIX reads is the sample that the last publish of the history left, or
the reset value. That the acceptance stands before the snapshot in the history is the model's (log entry 4). -/
def Obligations.WmfdSnapshotIsTheLastPublish : Prop :=
  ∀ s : State, s.HistoryInv → ∃ t es, exec .mix s = .next t
    ∧ t.history = s.history ++ .accepted .mix
        :: .snapshot (sampleOf s.history).x (sampleOf s.history).y (sampleOf s.history).valid :: es

/-! ### Stimulus and observation -/

/-- R85: the pseudo-instructions expand to RXB words in order: BYTES to its bytes, FRAME to marker, payload and the correct
checksum, BADFRAME to marker, payload and the checksum as given. -/
def Obligations.PseudoInstructionsExpandToRxbWords : Prop :=
  (∀ bs : List Byte, bs ≠ [] → (Line.bytes (bs.map BitVec.toNat)).words = some ((feed bs).map encode))
  ∧ ∀ (p : Payload) (c : Byte),
    (Line.frame (p.bytes.map BitVec.toNat)).words = some ((feed (frameBytes p p.checksum)).map encode)
    ∧ (Line.badframe ((p.bytes ++ [c]).map BitVec.toNat)).words = some ((feed (frameBytes p c)).map encode)

/-- R83, R81, R55: the observation port carries the sample and the outputs, with the direction bit 0 for forward and 1 for
reverse, and nothing of the decoder's own state. -/
def Obligations.ObservationPortShowsSampleAndOutputs : Prop :=
  ∀ s : State,
    (observe s).obsSampleX = s.sampleX ∧ (observe s).obsSampleY = s.sampleY
    ∧ ((observe s).obsSampleValid = 1#1 ↔ s.sampleValid = true)
    ∧ ((observe s).obsDirA = 1#1 ↔ s.dirA = .reverse) ∧ (observe s).obsDutyA = s.dutyA
    ∧ ((observe s).obsDirB = 1#1 ↔ s.dirB = .reverse) ∧ (observe s).obsDutyB = s.dutyB
    ∧ ∀ s' : State, readSample s' = readSample s → s'.outputs = s.outputs → observe s' = observe s
end

