-- ==== Sys2Proof/Laws/State.lean ====
section
/-! SUPPORT. One lemma per field for each update of the state: what the update leaves in the field. -/

namespace Sys2Proof.Machine

variable (s : State)

/-! ### Recording an event -/

@[simp] theorem record_prevByte (e : Event) : (s.record e).prevByte = s.prevByte := rfl
@[simp] theorem record_reading (e : Event) : (s.record e).reading = s.reading := rfl
@[simp] theorem record_position (e : Event) : (s.record e).position = s.position := rfl
@[simp] theorem record_payload (e : Event) : (s.record e).payload = s.payload := rfl
@[simp] theorem record_sampleX (e : Event) : (s.record e).sampleX = s.sampleX := rfl
@[simp] theorem record_sampleY (e : Event) : (s.record e).sampleY = s.sampleY := rfl
@[simp] theorem record_sampleValid (e : Event) : (s.record e).sampleValid = s.sampleValid := rfl
@[simp] theorem record_dirA (e : Event) : (s.record e).dirA = s.dirA := rfl
@[simp] theorem record_dutyA (e : Event) : (s.record e).dutyA = s.dutyA := rfl
@[simp] theorem record_dirB (e : Event) : (s.record e).dirB = s.dirB := rfl
@[simp] theorem record_dutyB (e : Event) : (s.record e).dutyB = s.dutyB := rfl
@[simp] theorem record_diagLog (e : Event) : (s.record e).diagLog = s.diagLog := rfl
@[simp] theorem record_pubPending (e : Event) : (s.record e).pubPending = s.pubPending := rfl
@[simp] theorem record_mixPartial (e : Event) : (s.record e).mixPartial = s.mixPartial := rfl
@[simp] theorem record_refused (e : Event) : (s.record e).refused = s.refused := rfl
@[simp] theorem record_history (e : Event) : (s.record e).history = s.history ++ [e] := rfl
@[simp] theorem record_input (e : Event) : (s.record e).input = s.input := rfl

/-! ### `emit` -/

@[simp] theorem emit_prevByte (r : DiagRecord) : (emit r s).prevByte = s.prevByte := rfl
@[simp] theorem emit_reading (r : DiagRecord) : (emit r s).reading = s.reading := rfl
@[simp] theorem emit_position (r : DiagRecord) : (emit r s).position = s.position := rfl
@[simp] theorem emit_payload (r : DiagRecord) : (emit r s).payload = s.payload := rfl
@[simp] theorem emit_sampleX (r : DiagRecord) : (emit r s).sampleX = s.sampleX := rfl
@[simp] theorem emit_sampleY (r : DiagRecord) : (emit r s).sampleY = s.sampleY := rfl
@[simp] theorem emit_sampleValid (r : DiagRecord) : (emit r s).sampleValid = s.sampleValid := rfl
@[simp] theorem emit_dirA (r : DiagRecord) : (emit r s).dirA = s.dirA := rfl
@[simp] theorem emit_dutyA (r : DiagRecord) : (emit r s).dutyA = s.dutyA := rfl
@[simp] theorem emit_dirB (r : DiagRecord) : (emit r s).dirB = s.dirB := rfl
@[simp] theorem emit_dutyB (r : DiagRecord) : (emit r s).dutyB = s.dutyB := rfl
@[simp] theorem emit_diagLog (r : DiagRecord) : (emit r s).diagLog = s.diagLog ++ [r] := rfl
@[simp] theorem emit_pubPending (r : DiagRecord) : (emit r s).pubPending = s.pubPending := rfl
@[simp] theorem emit_mixPartial (r : DiagRecord) : (emit r s).mixPartial = s.mixPartial := rfl
@[simp] theorem emit_refused (r : DiagRecord) : (emit r s).refused = s.refused := rfl
@[simp] theorem emit_history (r : DiagRecord) : (emit r s).history = s.history ++ [.diagnosed r] := rfl
@[simp] theorem emit_input (r : DiagRecord) : (emit r s).input = s.input := rfl

/-! ### `drive` of motor A -/

@[simp] theorem drive_a_prevByte (d : Direction) (u : Duty) : (drive .a d u s).prevByte = s.prevByte := rfl
@[simp] theorem drive_a_reading (d : Direction) (u : Duty) : (drive .a d u s).reading = s.reading := rfl
@[simp] theorem drive_a_position (d : Direction) (u : Duty) : (drive .a d u s).position = s.position := rfl
@[simp] theorem drive_a_payload (d : Direction) (u : Duty) : (drive .a d u s).payload = s.payload := rfl
@[simp] theorem drive_a_sampleX (d : Direction) (u : Duty) : (drive .a d u s).sampleX = s.sampleX := rfl
@[simp] theorem drive_a_sampleY (d : Direction) (u : Duty) : (drive .a d u s).sampleY = s.sampleY := rfl
@[simp] theorem drive_a_sampleValid (d : Direction) (u : Duty) : (drive .a d u s).sampleValid = s.sampleValid := rfl
@[simp] theorem drive_a_dirA (d : Direction) (u : Duty) : (drive .a d u s).dirA = d := rfl
@[simp] theorem drive_a_dutyA (d : Direction) (u : Duty) : (drive .a d u s).dutyA = u := rfl
@[simp] theorem drive_a_dirB (d : Direction) (u : Duty) : (drive .a d u s).dirB = s.dirB := rfl
@[simp] theorem drive_a_dutyB (d : Direction) (u : Duty) : (drive .a d u s).dutyB = s.dutyB := rfl
@[simp] theorem drive_a_diagLog (d : Direction) (u : Duty) : (drive .a d u s).diagLog = s.diagLog := rfl
@[simp] theorem drive_a_pubPending (d : Direction) (u : Duty) : (drive .a d u s).pubPending = s.pubPending := rfl
@[simp] theorem drive_a_mixPartial (d : Direction) (u : Duty) : (drive .a d u s).mixPartial = s.mixPartial := rfl
@[simp] theorem drive_a_refused (d : Direction) (u : Duty) : (drive .a d u s).refused = s.refused := rfl
@[simp] theorem drive_a_history (d : Direction) (u : Duty) : (drive .a d u s).history = s.history ++ [.drove .a d u] := rfl
@[simp] theorem drive_a_input (d : Direction) (u : Duty) : (drive .a d u s).input = s.input := rfl

/-! ### `drive` of motor B -/

@[simp] theorem drive_b_prevByte (d : Direction) (u : Duty) : (drive .b d u s).prevByte = s.prevByte := rfl
@[simp] theorem drive_b_reading (d : Direction) (u : Duty) : (drive .b d u s).reading = s.reading := rfl
@[simp] theorem drive_b_position (d : Direction) (u : Duty) : (drive .b d u s).position = s.position := rfl
@[simp] theorem drive_b_payload (d : Direction) (u : Duty) : (drive .b d u s).payload = s.payload := rfl
@[simp] theorem drive_b_sampleX (d : Direction) (u : Duty) : (drive .b d u s).sampleX = s.sampleX := rfl
@[simp] theorem drive_b_sampleY (d : Direction) (u : Duty) : (drive .b d u s).sampleY = s.sampleY := rfl
@[simp] theorem drive_b_sampleValid (d : Direction) (u : Duty) : (drive .b d u s).sampleValid = s.sampleValid := rfl
@[simp] theorem drive_b_dirA (d : Direction) (u : Duty) : (drive .b d u s).dirA = s.dirA := rfl
@[simp] theorem drive_b_dutyA (d : Direction) (u : Duty) : (drive .b d u s).dutyA = s.dutyA := rfl
@[simp] theorem drive_b_dirB (d : Direction) (u : Duty) : (drive .b d u s).dirB = d := rfl
@[simp] theorem drive_b_dutyB (d : Direction) (u : Duty) : (drive .b d u s).dutyB = u := rfl
@[simp] theorem drive_b_diagLog (d : Direction) (u : Duty) : (drive .b d u s).diagLog = s.diagLog := rfl
@[simp] theorem drive_b_pubPending (d : Direction) (u : Duty) : (drive .b d u s).pubPending = s.pubPending := rfl
@[simp] theorem drive_b_mixPartial (d : Direction) (u : Duty) : (drive .b d u s).mixPartial = s.mixPartial := rfl
@[simp] theorem drive_b_refused (d : Direction) (u : Duty) : (drive .b d u s).refused = s.refused := rfl
@[simp] theorem drive_b_history (d : Direction) (u : Duty) : (drive .b d u s).history = s.history ++ [.drove .b d u] := rfl
@[simp] theorem drive_b_input (d : Direction) (u : Duty) : (drive .b d u s).input = s.input := rfl

/-! ### `refuse` -/

@[simp] theorem refuse_prevByte (w : OpWord) : (refuse w s).prevByte = s.prevByte := rfl
@[simp] theorem refuse_reading (w : OpWord) : (refuse w s).reading = s.reading := rfl
@[simp] theorem refuse_position (w : OpWord) : (refuse w s).position = s.position := rfl
@[simp] theorem refuse_payload (w : OpWord) : (refuse w s).payload = s.payload := rfl
@[simp] theorem refuse_sampleX (w : OpWord) : (refuse w s).sampleX = s.sampleX := rfl
@[simp] theorem refuse_sampleY (w : OpWord) : (refuse w s).sampleY = s.sampleY := rfl
@[simp] theorem refuse_sampleValid (w : OpWord) : (refuse w s).sampleValid = s.sampleValid := rfl
@[simp] theorem refuse_dirA (w : OpWord) : (refuse w s).dirA = s.dirA := rfl
@[simp] theorem refuse_dutyA (w : OpWord) : (refuse w s).dutyA = s.dutyA := rfl
@[simp] theorem refuse_dirB (w : OpWord) : (refuse w s).dirB = s.dirB := rfl
@[simp] theorem refuse_dutyB (w : OpWord) : (refuse w s).dutyB = s.dutyB := rfl
@[simp] theorem refuse_diagLog (w : OpWord) : (refuse w s).diagLog = s.diagLog := rfl
@[simp] theorem refuse_pubPending (w : OpWord) : (refuse w s).pubPending = s.pubPending := rfl
@[simp] theorem refuse_mixPartial (w : OpWord) : (refuse w s).mixPartial = s.mixPartial := rfl
@[simp] theorem refuse_refused (w : OpWord) : (refuse w s).refused = true := rfl
@[simp] theorem refuse_history (w : OpWord) : (refuse w s).history = s.history ++ [.refusal w] := rfl
@[simp] theorem refuse_input (w : OpWord) : (refuse w s).input = s.input := rfl

/-! ### `startFrame` -/

@[simp] theorem startFrame_prevByte : (startFrame s).prevByte = s.prevByte := rfl
@[simp] theorem startFrame_reading : (startFrame s).reading = true := rfl
@[simp] theorem startFrame_position : (startFrame s).position = 0#3 := rfl
@[simp] theorem startFrame_payload : (startFrame s).payload = s.payload := rfl
@[simp] theorem startFrame_sampleX : (startFrame s).sampleX = s.sampleX := rfl
@[simp] theorem startFrame_sampleY : (startFrame s).sampleY = s.sampleY := rfl
@[simp] theorem startFrame_sampleValid : (startFrame s).sampleValid = s.sampleValid := rfl
@[simp] theorem startFrame_dirA : (startFrame s).dirA = s.dirA := rfl
@[simp] theorem startFrame_dutyA : (startFrame s).dutyA = s.dutyA := rfl
@[simp] theorem startFrame_dirB : (startFrame s).dirB = s.dirB := rfl
@[simp] theorem startFrame_dutyB : (startFrame s).dutyB = s.dutyB := rfl
@[simp] theorem startFrame_diagLog : (startFrame s).diagLog = s.diagLog := rfl
@[simp] theorem startFrame_pubPending : (startFrame s).pubPending = s.pubPending := rfl
@[simp] theorem startFrame_mixPartial : (startFrame s).mixPartial = s.mixPartial := rfl
@[simp] theorem startFrame_refused : (startFrame s).refused = s.refused := rfl
@[simp] theorem startFrame_history : (startFrame s).history = s.history := rfl
@[simp] theorem startFrame_input : (startFrame s).input = s.input := rfl

/-! ### `resetElements` -/

@[simp] theorem resetElements_prevByte (p : Config.Params) : (resetElements p s).prevByte = p.prevReset := rfl
@[simp] theorem resetElements_reading (p : Config.Params) : (resetElements p s).reading = false := rfl
@[simp] theorem resetElements_position (p : Config.Params) : (resetElements p s).position = 0#3 := rfl
@[simp] theorem resetElements_payload (p : Config.Params) : (resetElements p s).payload = [] := rfl
@[simp] theorem resetElements_sampleX (p : Config.Params) : (resetElements p s).sampleX = 0x00#8 := rfl
@[simp] theorem resetElements_sampleY (p : Config.Params) : (resetElements p s).sampleY = 0x00#8 := rfl
@[simp] theorem resetElements_sampleValid (p : Config.Params) : (resetElements p s).sampleValid = false := rfl
@[simp] theorem resetElements_dirA (p : Config.Params) : (resetElements p s).dirA = Direction.forward := rfl
@[simp] theorem resetElements_dutyA (p : Config.Params) : (resetElements p s).dutyA = 0#7 := rfl
@[simp] theorem resetElements_dirB (p : Config.Params) : (resetElements p s).dirB = Direction.forward := rfl
@[simp] theorem resetElements_dutyB (p : Config.Params) : (resetElements p s).dutyB = 0#7 := rfl
@[simp] theorem resetElements_diagLog (p : Config.Params) : (resetElements p s).diagLog = s.diagLog := rfl
@[simp] theorem resetElements_pubPending (p : Config.Params) : (resetElements p s).pubPending = [] := rfl
@[simp] theorem resetElements_mixPartial (p : Config.Params) : (resetElements p s).mixPartial = PartialSnapshot.empty := rfl
@[simp] theorem resetElements_refused (p : Config.Params) : (resetElements p s).refused = s.refused := rfl
@[simp] theorem resetElements_history (p : Config.Params) : (resetElements p s).history = s.history := rfl
@[simp] theorem resetElements_input (p : Config.Params) : (resetElements p s).input = s.input := rfl

/-! ### `powerOn` -/

@[simp] theorem powerOn_prevByte (p : Config.Params) : (powerOn p s).prevByte = p.prevReset := rfl
@[simp] theorem powerOn_reading (p : Config.Params) : (powerOn p s).reading = false := rfl
@[simp] theorem powerOn_position (p : Config.Params) : (powerOn p s).position = 0#3 := rfl
@[simp] theorem powerOn_payload (p : Config.Params) : (powerOn p s).payload = [] := rfl
@[simp] theorem powerOn_sampleX (p : Config.Params) : (powerOn p s).sampleX = 0x00#8 := rfl
@[simp] theorem powerOn_sampleY (p : Config.Params) : (powerOn p s).sampleY = 0x00#8 := rfl
@[simp] theorem powerOn_sampleValid (p : Config.Params) : (powerOn p s).sampleValid = false := rfl
@[simp] theorem powerOn_dirA (p : Config.Params) : (powerOn p s).dirA = Direction.forward := rfl
@[simp] theorem powerOn_dutyA (p : Config.Params) : (powerOn p s).dutyA = 0#7 := rfl
@[simp] theorem powerOn_dirB (p : Config.Params) : (powerOn p s).dirB = Direction.forward := rfl
@[simp] theorem powerOn_dutyB (p : Config.Params) : (powerOn p s).dutyB = 0#7 := rfl
@[simp] theorem powerOn_diagLog (p : Config.Params) : (powerOn p s).diagLog = [] := rfl
@[simp] theorem powerOn_pubPending (p : Config.Params) : (powerOn p s).pubPending = [] := rfl
@[simp] theorem powerOn_mixPartial (p : Config.Params) : (powerOn p s).mixPartial = PartialSnapshot.empty := rfl
@[simp] theorem powerOn_refused (p : Config.Params) : (powerOn p s).refused = false := rfl
@[simp] theorem powerOn_history (p : Config.Params) : (powerOn p s).history = s.history := rfl
@[simp] theorem powerOn_input (p : Config.Params) : (powerOn p s).input = s.input := rfl

/-! ### `putFirst` -/

@[simp] theorem putFirst_prevByte (w : OpWord) : (putFirst w s).prevByte = s.prevByte := rfl
@[simp] theorem putFirst_reading (w : OpWord) : (putFirst w s).reading = s.reading := rfl
@[simp] theorem putFirst_position (w : OpWord) : (putFirst w s).position = s.position := rfl
@[simp] theorem putFirst_payload (w : OpWord) : (putFirst w s).payload = s.payload := rfl
@[simp] theorem putFirst_sampleX (w : OpWord) : (putFirst w s).sampleX = s.sampleX := rfl
@[simp] theorem putFirst_sampleY (w : OpWord) : (putFirst w s).sampleY = s.sampleY := rfl
@[simp] theorem putFirst_sampleValid (w : OpWord) : (putFirst w s).sampleValid = s.sampleValid := rfl
@[simp] theorem putFirst_dirA (w : OpWord) : (putFirst w s).dirA = s.dirA := rfl
@[simp] theorem putFirst_dutyA (w : OpWord) : (putFirst w s).dutyA = s.dutyA := rfl
@[simp] theorem putFirst_dirB (w : OpWord) : (putFirst w s).dirB = s.dirB := rfl
@[simp] theorem putFirst_dutyB (w : OpWord) : (putFirst w s).dutyB = s.dutyB := rfl
@[simp] theorem putFirst_diagLog (w : OpWord) : (putFirst w s).diagLog = s.diagLog := rfl
@[simp] theorem putFirst_pubPending (w : OpWord) : (putFirst w s).pubPending = s.pubPending := rfl
@[simp] theorem putFirst_mixPartial (w : OpWord) : (putFirst w s).mixPartial = s.mixPartial := rfl
@[simp] theorem putFirst_refused (w : OpWord) : (putFirst w s).refused = s.refused := rfl
@[simp] theorem putFirst_history (w : OpWord) : (putFirst w s).history = s.history := rfl
@[simp] theorem putFirst_input (w : OpWord) : (putFirst w s).input = w :: s.input := rfl

/-! ### Publishing with ATOMIC_PUBLISH = true -/

@[simp] theorem publishPass_wmfd (x y : Byte) : publishPass Config.wmfd x y s
    = ({ s with sampleX := x, sampleY := y, sampleValid := true }).record (.published (some x) (some y) true) := rfl
@[simp] theorem publishFail_wmfd : publishFail Config.wmfd s
    = ({ s with sampleValid := false }).record (.published none none false) := rfl

end Sys2Proof.Machine
end

