-- ==== Sys2Proof/Laws/Memory.lean ====
section
/-! SUPPORT. The laws of PAY: reading after writing, and the canonical form (20_memory.md R51). -/

namespace Sys2Proof.Machine

theorem Memory.read_insertCell_same (a : Nat) (v : Byte) (m : Memory) (h : ∀ c ∈ m, c.1 ≠ a) :
    (Memory.insertCell a v m).read a = v := by
  induction m with
  | nil => simp [Memory.insertCell, Memory.read]
  | cons c m ih =>
    have hc : c.1 ≠ a := h c (by simp)
    have ih' := ih fun d hd => h d (by simp [hd])
    unfold Memory.insertCell
    split <;> simp [Memory.read, hc, ih']

theorem Memory.read_insertCell_other {a b : Nat} (v : Byte) (m : Memory) (h : b ≠ a) :
    (Memory.insertCell a v m).read b = m.read b := by
  induction m with
  | nil => simp [Memory.insertCell, Memory.read, h.symm]
  | cons c m ih =>
    unfold Memory.insertCell
    split <;> simp [Memory.read, h.symm, ih]

theorem Memory.read_filter_same (a : Nat) (m : Memory) :
    Memory.read (m.filter (fun c => c.1 != a)) a = Memory.unlisted := by
  induction m with
  | nil => rfl
  | cons c m ih =>
    by_cases hc : c.1 = a <;> simp_all [Memory.read]

theorem Memory.read_filter_other {a b : Nat} (m : Memory) (h : b ≠ a) :
    Memory.read (m.filter (fun c => c.1 != a)) b = m.read b := by
  induction m with
  | nil => rfl
  | cons c m ih =>
    by_cases hc : c.1 = a
    · have hb : c.1 ≠ b := fun e => h (e.symm.trans hc)
      simp_all [Memory.read]
    · simp_all [Memory.read]

/-- A byte read where it was just written is the byte written. -/
@[simp] theorem Memory.read_write_same (m : Memory) (a : Nat) (v : Byte) : (m.write a v).read a = v := by
  unfold Memory.write
  simp only
  split
  · simp_all [Memory.read_filter_same]
  · exact Memory.read_insertCell_same a v _ fun c hc => by simpa using (List.mem_filter.mp hc).2

/-- A write leaves every other address as it was. -/
theorem Memory.read_write_other (m : Memory) {a b : Nat} (v : Byte) (h : b ≠ a) :
    (m.write a v).read b = m.read b := by
  unfold Memory.write
  simp only
  split
  · exact Memory.read_filter_other m h
  · rw [Memory.read_insertCell_other v _ h, Memory.read_filter_other m h]

theorem Memory.mem_insertCell {a : Nat} {v : Byte} {m : Memory} {c : Host.Cell}
    (h : c ∈ Memory.insertCell a v m) : c = (a, v) ∨ c ∈ m := by
  induction m with
  | nil => simpa [Memory.insertCell] using h
  | cons d m ih =>
    unfold Memory.insertCell at h
    split at h
    · simpa using h
    · rcases List.mem_cons.mp h with h | h
      · exact Or.inr (by simp [h])
      · exact (ih h).imp id fun h' => by simp [h']

theorem Memory.pairwise_insertCell {a : Nat} {v : Byte} {m : Memory}
    (hm : m.Pairwise (fun c d => c.1 < d.1)) (ha : ∀ c ∈ m, c.1 ≠ a) :
    (Memory.insertCell a v m).Pairwise (fun c d => c.1 < d.1) := by
  induction m with
  | nil => simp [Memory.insertCell]
  | cons d m ih =>
    rcases List.pairwise_cons.mp hm with ⟨hd, hm'⟩
    have hda : d.1 ≠ a := ha d (by simp)
    unfold Memory.insertCell
    split
    next hlt =>
      refine List.pairwise_cons.mpr ⟨fun c hc => ?_, hm⟩
      rcases List.mem_cons.mp hc with rfl | hc
      · exact hlt
      · exact hlt.trans (hd c hc)
    next hge =>
      refine List.pairwise_cons.mpr ⟨fun c hc => ?_, ih hm' fun c hc => ha c (by simp [hc])⟩
      rcases Memory.mem_insertCell hc with rfl | hc
      · exact lt_of_le_of_ne (not_lt.mp hge) hda
      · exact hd c hc

/-- A write inside PAY keeps the canonical form. -/
theorem Memory.write_wf {m : Memory} {a : Nat} (v : Byte) (hm : m.wf) (ha : a < Config.payloadLen) :
    (m.write a v).wf := by
  obtain ⟨hp, hc⟩ := hm
  have hp' := hp.filter (fun c => c.1 != a)
  have hc' : ∀ c ∈ m.filter (fun c => c.1 != a), c.1 < Config.payloadLen ∧ c.2 ≠ Memory.unlisted :=
    fun c h => hc c (List.mem_filter.mp h).1
  unfold Memory.write
  simp only
  split
  next => exact ⟨hp', hc'⟩
  next hv =>
    refine ⟨Memory.pairwise_insertCell hp' fun c h => by simpa using (List.mem_filter.mp h).2, fun c h => ?_⟩
    rcases Memory.mem_insertCell h with rfl | h
    · exact ⟨ha, hv⟩
    · exact hc' c h

/-- PAY is in canonical form after reset. -/
theorem reset_payload_wf : State.reset.payload.wf := by decide

/-! ### The accesses -/

@[simp] theorem memRead_in_range (s : State) {a : Nat} (h : a < 6) : memRead s a = .ok (s.payload.read a) := by
  simp [memRead, h]

@[simp] theorem memWrite_in_range (s : State) {a : Nat} (v : Byte) (h : a < 6) :
    memWrite s a v = .ok { s with payload := s.payload.write a v } := by
  simp [memWrite, h]

/-- What a write of PAY can do: store one byte in range, or fault out of range. -/
theorem memWrite_next {s t : State} {a : Nat} {v : Byte} (h : memWrite s a v = .ok t) :
    a < 6 ∧ t = { s with payload := s.payload.write a v } := by
  unfold memWrite at h
  split at h
  next ha => exact ⟨ha, by simpa using h.symm⟩
  next => simp at h


end Sys2Proof.Machine
end

