-- ==== Sys2Proof/Laws/Ops.lean ====
section
/-! SUPPORT. What each shared operation can do, said once: the payload read, the checksum, the append, the validation of a
trailer, RXB and MIX as plain updates. -/

namespace Sys2Proof.Machine

/-! ### WMFD's parameters -/

@[simp] theorem wmfd_atomicPublish : Config.wmfd.atomicPublish = true := rfl
@[simp] theorem wmfd_trailerMarkerMode : Config.wmfd.trailerMarkerMode = .validateThenRestart := rfl
@[simp] theorem wmfd_speedQuant : Config.wmfd.speedQuant = .truncFinal := rfl
@[simp] theorem wmfd_invalidPolicy : Config.wmfd.invalidPolicy = .hold := rfl
@[simp] theorem wmfd_prevReset : Config.wmfd.prevReset = 0xFF#8 := rfl

/-! ### The decoder's pieces -/

theorem readPayload_eq (s : State) : readPayload s = .ok (payloadPrefix s 6) := rfl

theorem checksum_eq (s : State) : checksum s = .ok (sumMod256 (payloadPrefix s 6)) := rfl

/-- An append in range stores the byte at `position` and moves `position` on. -/
theorem appendByte_eq (b : Byte) (s : State) (h : s.position.toNat < 6) :
    appendByte b s = .ok { s with payload := s.payload.write s.position.toNat b, position := s.position + 1#3 } := by
  simp [appendByte, h, bind, Except.bind, pure, Except.pure]

/-- The state after a passing trailer, before `prev_byte` is written. -/
def trailerPassed (s : State) : State :=
  { publishPass Config.wmfd (s.payload.read 0) (s.payload.read 1) s with reading := false }

/-- The state after a failing trailer, before `prev_byte` is written. -/
def trailerFailed (b : Byte) (s : State) : State :=
  { emit { code := checksumMismatch, observed := b, expected := sumMod256 (payloadPrefix s 6) }
      (publishFail Config.wmfd s) with reading := false }

/-- A trailer passes when it is the checksum, and fails otherwise; nothing else can happen. -/
theorem validateTrailer_eq (b : Byte) (s : State) : validateTrailer Config.wmfd b s
    = .ok (if b = sumMod256 (payloadPrefix s 6) then trailerPassed s else trailerFailed b s) := by
  simp only [validateTrailer, checksum_eq, bind, Except.bind]
  rw [memRead_in_range s (by decide), memRead_in_range s (by decide)]
  simp only [trailerPassed, trailerFailed]
  split <;> rfl

/-- In WMFD's mode every trailer is validated. -/
@[simp] theorem doValidate_wmfd (b : Byte) (s : State) : doValidate Config.wmfd b s = atTrailer s := by
  have h : (Config.TrailerMarkerMode.validateThenRestart == .restartOnly) = false := rfl
  simp [doValidate, h]

/-- In WMFD's mode every marker starts a frame. -/
@[simp] theorem doStart_wmfd (b : Byte) (s : State) : doStart Config.wmfd b s = marker s b := by
  have h : (Config.TrailerMarkerMode.validateThenRestart == .validateOnly) = false := rfl
  simp [doStart, h]

/-- What RXB b does before a frame starts and `prev_byte` is written: validate a trailer, append, or nothing. -/
def rxbMiddle (b : Byte) (s : State) : State :=
  if atTrailer s = true then
    (if b = sumMod256 (payloadPrefix s 6) then trailerPassed s else trailerFailed b s)
  else if s.reading = true ∧ s.position.toNat < 6 ∧ marker s b = false then
    { s with payload := s.payload.write s.position.toNat b, position := s.position + 1#3 }
  else s

theorem rxbMiddle_pass {b : Byte} {s : State} (ht : atTrailer s = true) (hb : b = sumMod256 (payloadPrefix s 6)) :
    rxbMiddle b s = trailerPassed s := by
  rw [rxbMiddle, if_pos ht, if_pos hb]

theorem rxbMiddle_fail {b : Byte} {s : State} (ht : atTrailer s = true) (hb : b ≠ sumMod256 (payloadPrefix s 6)) :
    rxbMiddle b s = trailerFailed b s := by
  rw [rxbMiddle, if_pos ht, if_neg hb]

theorem rxbMiddle_append {b : Byte} {s : State} (ht : ¬ atTrailer s = true)
    (ha : s.reading = true ∧ s.position.toNat < 6 ∧ marker s b = false) :
    rxbMiddle b s = { s with payload := s.payload.write s.position.toNat b, position := s.position + 1#3 } := by
  rw [rxbMiddle, if_neg ht, if_pos ha]

theorem rxbMiddle_none {b : Byte} {s : State} (ht : ¬ atTrailer s = true)
    (ha : ¬ (s.reading = true ∧ s.position.toNat < 6 ∧ marker s b = false)) : rxbMiddle b s = s := by
  rw [rxbMiddle, if_neg ht, if_neg ha]

theorem consumeByte_eq (b : Byte) (s : State) : consumeByte Config.wmfd b s = .ok (rxbMiddle b s) := by
  unfold consumeByte rxbMiddle
  rw [doValidate_wmfd]
  by_cases ht : atTrailer s = true
  · rw [if_pos ht, if_pos ht, validateTrailer_eq]
  · rw [if_neg ht, if_neg ht]
    by_cases ha : s.reading = true ∧ s.position.toNat < 6 ∧ marker s b = false
    · have h : (s.reading && decide (s.position < 6#3) && !marker s b) = true := by
        rw [Bool.and_eq_true, Bool.and_eq_true, decide_eq_true_eq, Bool.not_eq_true']
        exact ⟨⟨ha.1, ha.2.1⟩, ha.2.2⟩
      rw [if_pos h, if_pos ha, appendByte_eq b s ha.2.1]
    · have h : ¬ (s.reading && decide (s.position < 6#3) && !marker s b) = true := by
        rw [Bool.and_eq_true, Bool.and_eq_true, decide_eq_true_eq, Bool.not_eq_true']
        exact fun h => ha ⟨h.1.1, h.1.2, h.2⟩
      rw [if_neg h, if_neg ha]

/-- The state that RXB b leaves, as a plain update of the state after the acceptance is recorded. -/
def rxbResult (b : Byte) (s : State) : State :=
  finishByte (marker s b) b (rxbMiddle b (s.record (.accepted (.rxb b))))

/-- RXB always completes, and what it leaves is `rxbResult`. -/
theorem execRxb_eq (b : Byte) (s : State) : execRxb b s = .next (rxbResult b s) := by
  unfold execRxb rxbWith rxbResult
  simp only [consumeByte_eq, doStart_wmfd]
  rfl

/-! ### The mixer -/

/-- The state that MIX leaves. -/
def mixResult (s0 : State) : State :=
  let s := (s0.record (.accepted .mix)).record (.snapshot s0.sampleX s0.sampleY s0.sampleValid)
  if s0.sampleValid then
    drive .b (dirOf (speedFinal .b s0.sampleX s0.sampleY)) (magOf (speedFinal .b s0.sampleX s0.sampleY))
      (drive .a (dirOf (speedFinal .a s0.sampleX s0.sampleY)) (magOf (speedFinal .a s0.sampleX s0.sampleY)) s)
  else s

/-- MIX always completes, and what it leaves is `mixResult`. -/
theorem execMix_eq (s : State) : execMix s = .next (mixResult s) := by
  simp only [execMix, mixWith, mixFrom, mixResult, readSample, driveDir, driveMag, wmfd_speedQuant]
  rfl

/-! ### Reset -/

/-- The state that RST leaves. -/
def rstResult (s0 : State) : State :=
  (resetElements Config.wmfd (s0.record (.accepted .rst))).record (.published (some 0x00#8) (some 0x00#8) false)

theorem execRst_eq (s : State) : execRst s = .next (rstResult s) := rfl

/-- The state that an operation leaves. -/
def execResult : Instr → State → State
  | .rxb b, s => rxbResult b s
  | .mix, s => mixResult s
  | .rst, s => rstResult s

theorem exec_eq (i : Instr) (s : State) : exec i s = .next (execResult i s) := by
  cases i with
  | rxb b => exact execRxb_eq b s
  | mix => exact execMix_eq s
  | rst => exact execRst_eq s

/-! ### The step -/

theorem step_empty {s : State} (h : s.input = []) : step s = .next s := by
  simp [step, fetch, h, idle]

theorem step_cons {s : State} {w : OpWord} {ws : List OpWord} (h : s.input = w :: ws) :
    step s = match decode w with
      | .ok i => exec i { s with input := ws }
      | .error e => reject e { s with input := ws } := by
  have hf : fetch s = some (w, { s with input := ws }) := by simp only [fetch, h]
  cases hd : decode w <;> simp only [step, hf, hd]

/-- What a step can do: wait, run the operation at the port, or refuse the word there. -/
theorem step_next {s t : State} (h : step s = .next t) :
    (s.input = [] ∧ t = s)
    ∨ (∃ w ws i, s.input = w :: ws ∧ decode w = .ok i ∧ exec i { s with input := ws } = .next t)
    ∨ (∃ w ws v, s.input = w :: ws ∧ decode w = .error (.reservedWord v) ∧ t = refuse v { s with input := ws }) := by
  cases hi : s.input with
  | nil =>
    rw [step_empty hi] at h
    simp only [Host.Outcome.next.injEq] at h
    exact .inl ⟨rfl, h.symm⟩
  | cons w ws =>
    rw [step_cons hi] at h
    cases hd : decode w with
    | ok i =>
      rw [hd] at h
      exact .inr (.inl ⟨w, ws, i, rfl, hd, h⟩)
    | error e =>
      rw [hd] at h
      cases e with
      | reservedWord v =>
        simp only [reject, Host.Outcome.next.injEq] at h
        exact .inr (.inr ⟨w, ws, v, rfl, hd, h.symm⟩)

end Sys2Proof.Machine
end

