-- ==== Sys2Proof/Laws/Decoder.lean ====
section
/-! SUPPORT. What one RXB can do, said once as five cases (40_decoder.md R102), and the conditions it tests. -/

namespace Sys2Proof.Machine

theorem marker_eq_true {s : State} {b : Byte} : marker s b = true ↔ s.prevByte = 0x00#8 ∧ b = 0xFF#8 := by
  simp [marker]

theorem marker_eq_false {s : State} {b : Byte} : marker s b = false ↔ ¬ (s.prevByte = 0x00#8 ∧ b = 0xFF#8) := by
  rw [← marker_eq_true, Bool.not_eq_true]

theorem atTrailer_eq_true {s : State} : atTrailer s = true ↔ s.reading = true ∧ s.position = 6#3 := by
  simp [atTrailer]

@[simp] theorem marker_record (s : State) (e : Event) (b : Byte) : marker (s.record e) b = marker s b := rfl

@[simp] theorem atTrailer_record (s : State) (e : Event) : atTrailer (s.record e) = atTrailer s := rfl

@[simp] theorem payloadPrefix_record (s : State) (e : Event) (k : Nat) :
    payloadPrefix (s.record e) k = payloadPrefix s k := rfl

/-- The five things RXB b can do: nothing but `prev_byte`; start or restart a frame; append; pass a trailer; fail a
trailer. A trailer that completes a marker also starts a frame. -/
theorem rxbResult_cases (b : Byte) (s : State) :
    (atTrailer s = false ∧ marker s b = false ∧ (s.reading = false ∨ ¬ s.position.toNat < 6) ∧
      rxbResult b s = { s with prevByte := b, history := s.history ++ [.accepted (.rxb b)] })
    ∨ (atTrailer s = false ∧ marker s b = true ∧
      rxbResult b s = { s with
        position := 0#3, reading := true, prevByte := b, history := s.history ++ [.accepted (.rxb b)] })
    ∨ (atTrailer s = false ∧ marker s b = false ∧ s.reading = true ∧ s.position.toNat < 6 ∧
      rxbResult b s = { s with
        payload := s.payload.write s.position.toNat b, position := s.position + 1#3, prevByte := b
        history := s.history ++ [.accepted (.rxb b)] })
    ∨ (atTrailer s = true ∧ b = sumMod256 (payloadPrefix s 6) ∧
      rxbResult b s = { s with
        sampleX := s.payload.read 0, sampleY := s.payload.read 1, sampleValid := true
        reading := marker s b, position := if marker s b then 0#3 else s.position, prevByte := b
        history := s.history ++ [.accepted (.rxb b),
          .published (some (s.payload.read 0)) (some (s.payload.read 1)) true] })
    ∨ (atTrailer s = true ∧ b ≠ sumMod256 (payloadPrefix s 6) ∧
      rxbResult b s = { s with
        sampleValid := false
        diagLog := s.diagLog
          ++ [{ code := 0x01#8, observed := b, expected := sumMod256 (payloadPrefix s 6) }]
        reading := marker s b, position := if marker s b then 0#3 else s.position, prevByte := b
        history := s.history ++ [.accepted (.rxb b), .published none none false,
          .diagnosed { code := 0x01#8, observed := b, expected := sumMod256 (payloadPrefix s 6) }] }) := by
  unfold rxbResult
  by_cases ht : atTrailer s = true
  · have ht1 : atTrailer (s.record (.accepted (.rxb b))) = true := ht
    by_cases hb : b = sumMod256 (payloadPrefix s 6)
    · refine .inr (.inr (.inr (.inl ⟨ht, hb, ?_⟩)))
      rw [rxbMiddle_pass ht1 hb]
      by_cases hm : marker s b = true <;> simp [hm, finishByte, trailerPassed, State.record, startFrame]
    · refine .inr (.inr (.inr (.inr ⟨ht, hb, ?_⟩)))
      rw [rxbMiddle_fail ht1 hb]
      by_cases hm : marker s b = true <;>
        simp [hm, finishByte, trailerFailed, State.record, startFrame, emit, checksumMismatch, payloadPrefix]
  · have ht' : atTrailer s = false := by simpa using ht
    have ht1 : ¬ atTrailer (s.record (.accepted (.rxb b))) = true := ht
    by_cases hm : marker s b = true
    · refine .inr (.inl ⟨ht', hm, ?_⟩)
      rw [rxbMiddle_none ht1 fun h => by simp [hm] at h]
      simp [hm, finishByte, State.record, startFrame]
    · have hm' : marker s b = false := by simpa using hm
      by_cases ha : s.reading = true ∧ s.position.toNat < 6
      · refine .inr (.inr (.inl ⟨ht', hm', ha.1, ha.2, ?_⟩))
        rw [rxbMiddle_append ht1 ⟨ha.1, ha.2, hm'⟩]
        simp [hm', finishByte, State.record]
      · refine .inl ⟨ht', hm', ?_, ?_⟩
        · by_cases hg : s.reading = true
          · exact .inr fun h => ha ⟨hg, h⟩
          · exact .inl (by simpa using hg)
        · rw [rxbMiddle_none ht1 fun h => ha ⟨h.1, h.2.1⟩]
          simp [hm', finishByte, State.record]

end Sys2Proof.Machine
end

