-- ==== Sys2Proof/Laws/Mixer.lean ====
section
/-! SUPPORT. What one MIX and one RST can do, said once (41_mixer.md R130, 70_reset_and_hazards.md R191), and the integer
arithmetic of the speeds. -/

namespace Sys2Proof.Machine

/-- MIX on a sample that is not valid: only the history grows. -/
theorem mixResult_of_invalid {s : State} (h : s.sampleValid = false) :
    mixResult s = { s with history := s.history ++ [.accepted .mix, .snapshot s.sampleX s.sampleY false] } := by
  unfold mixResult
  simp only
  rw [if_neg (by simp [h])]
  simp [State.record, h]

/-- MIX on a valid sample: both motors are driven. -/
theorem mixResult_of_valid {s : State} (h : s.sampleValid = true) :
    mixResult s = { s with
      dirA := dirOf (speedFinal .a s.sampleX s.sampleY), dutyA := magOf (speedFinal .a s.sampleX s.sampleY)
      dirB := dirOf (speedFinal .b s.sampleX s.sampleY), dutyB := magOf (speedFinal .b s.sampleX s.sampleY)
      history := s.history ++ [.accepted .mix, .snapshot s.sampleX s.sampleY true,
        .drove .a (dirOf (speedFinal .a s.sampleX s.sampleY)) (magOf (speedFinal .a s.sampleX s.sampleY)),
        .drove .b (dirOf (speedFinal .b s.sampleX s.sampleY)) (magOf (speedFinal .b s.sampleX s.sampleY))] } := by
  unfold mixResult
  simp only
  rw [if_pos h]
  simp [drive, State.record, h]

/-- RST: the elements of R190 at their reset values. -/
theorem rstResult_eq (s : State) :
    rstResult s = { State.reset with
      diagLog := s.diagLog, refused := s.refused, input := s.input
      history := s.history ++ [.accepted .rst, .published (some 0x00#8) (some 0x00#8) false] } := by
  simp [rstResult, resetElements, State.record, State.reset, State.resetWith]

/-- The clamped magnitude as a number. -/
theorem magOf_toNat (sp : Int) : (magOf sp).toNat = min 99 sp.natAbs := by
  simp only [magOf, BitVec.toNat_ofNat, Config.dutyMax]
  omega

theorem dirOf_eq_reverse {sp : Int} : dirOf sp = .reverse ↔ sp < 0 := by
  unfold dirOf
  split <;> simp [*]

/-- A quotient rounded toward zero, on either side of zero. -/
theorem truncQuot_of_nonneg {n d : Int} (hn : 0 ≤ n) : truncQuot n d = n / d := Int.tdiv_eq_ediv_of_nonneg hn

theorem truncQuot_of_neg {n d : Int} (hn : n ≤ 0) : truncQuot n d = -((-n) / d) := by
  have h : truncQuot n d = -(Int.tdiv (-n) d) := by simp [truncQuot, Int.neg_tdiv]
  rw [h, Int.tdiv_eq_ediv_of_nonneg (by omega)]

/-- The magnitude of a truncated quotient is the floor of the magnitudes' quotient (41_mixer.md R136). -/
theorem natAbs_truncQuot (n d : Int) : (truncQuot n d).natAbs = n.natAbs / d.natAbs := Int.natAbs_tdiv n d

end Sys2Proof.Machine
end

