-- ==== Sys2Proof/Laws/PerInstr.lean ====
section
/-! SUPPORT. Laws said of every operation, one lemma for each constructor. -/

namespace Sys2Proof.Laws

/-- The operation's word has the fixed bits of the operation's own row of the opcode table and of no other row. -/
def EncodingFitsRow.Statement (i : Instr) : Prop :=
  i.row.fits (encode i) = true ∧ i.row ∈ opcodeTable ∧
    ∀ r ∈ opcodeTable, r.fits (encode i) = true → r = i.row

theorem EncodingFitsRow.rxb (b : Byte) : EncodingFitsRow.Statement (.rxb b) := by
  unfold EncodingFitsRow.Statement
  revert b
  decide

theorem EncodingFitsRow.mix : EncodingFitsRow.Statement .mix := by
  unfold EncodingFitsRow.Statement
  decide

theorem EncodingFitsRow.rst : EncodingFitsRow.Statement .rst := by
  unfold EncodingFitsRow.Statement
  decide

end Sys2Proof.Laws
end

