-- ==== Sys2Proof/Laws/Relaxed.lean ====
section
/-! SUPPORT. RXB for every value of the parameters as a plain update, runs of the parametric block under a schedule, and
which moves of the relaxed mode do something (20_memory.md R59, 60_exceptions.md R174). -/

namespace Sys2Proof.Machine

/-! ### RXB for every value of the parameters -/

/-- The state after a trailer is validated, before `prev_byte` is written. -/
def trailerResultWith (p : Config.Params) (b : Byte) (s : State) : State :=
  if b = sumMod256 (payloadPrefix s 6) then
    { publishPass p (s.payload.read 0) (s.payload.read 1) s with reading := false }
  else
    { emit { code := checksumMismatch, observed := b, expected := sumMod256 (payloadPrefix s 6) }
        (publishFail p s) with reading := false }

theorem validateTrailer_eq_with (p : Config.Params) (b : Byte) (s : State) :
    validateTrailer p b s = .ok (trailerResultWith p b s) := by
  simp only [validateTrailer, checksum_eq, bind, Except.bind]
  rw [memRead_in_range s (by decide), memRead_in_range s (by decide)]
  simp only [trailerResultWith]
  split <;> rfl

/-- What RXB b does before a frame starts and `prev_byte` is written: validate a trailer, append, or nothing. -/
def rxbMiddleWith (p : Config.Params) (b : Byte) (s : State) : State :=
  if doValidate p b s = true then trailerResultWith p b s
  else if s.reading = true ∧ s.position.toNat < 6 ∧ marker s b = false then
    { s with payload := s.payload.write s.position.toNat b, position := s.position + 1#3 }
  else s

theorem consumeByte_eq_with (p : Config.Params) (b : Byte) (s : State) :
    consumeByte p b s = .ok (rxbMiddleWith p b s) := by
  unfold consumeByte rxbMiddleWith
  by_cases hv : doValidate p b s = true
  · rw [if_pos hv, if_pos hv, validateTrailer_eq_with]
  · rw [if_neg hv, if_neg hv]
    have hc : (s.reading && decide (s.position < 6#3) && !marker s b) = true
        ↔ s.reading = true ∧ s.position.toNat < 6 ∧ marker s b = false := by
      simp [BitVec.lt_def, and_assoc]
    by_cases ha : s.reading = true ∧ s.position.toNat < 6 ∧ marker s b = false
    · rw [if_pos (hc.mpr ha), if_pos ha, appendByte_eq b s ha.2.1]
    · rw [if_neg (fun h => ha (hc.mp h)), if_neg ha]

/-- The state that RXB b leaves on a block with the parameters `p`. -/
def rxbResultWith (p : Config.Params) (b : Byte) (s : State) : State :=
  finishByte (doStart p b (s.record (.accepted (.rxb b)))) b (rxbMiddleWith p b (s.record (.accepted (.rxb b))))

/-- RXB always completes, for every value of the parameters, and what it leaves is `rxbResultWith`. -/
theorem rxbWith_eq (p : Config.Params) (b : Byte) (s : State) : rxbWith p b s = .next (rxbResultWith p b s) := by
  unfold rxbWith rxbResultWith
  simp only [consumeByte_eq_with]
  rfl

/-! ### Runs under a schedule -/

@[simp] theorem runWith_nil (p : Config.Params) (s : State) : runWith p [] s = .next s := rfl

theorem runWith_cons_next {p : Config.Params} {mv : Move} {s t : State} (h : stepWith p mv s = .next t)
    (mvs : List Move) : runWith p (mv :: mvs) s = runWith p mvs t := by
  simp only [runWith, h]

/-- A run is its first part and then its second. -/
theorem runWith_append_next {p : Config.Params} {as : List Move} {s t : State} (h : runWith p as s = .next t)
    (bs : List Move) : runWith p (as ++ bs) s = runWith p bs t := by
  induction as generalizing s with
  | nil =>
    simp only [runWith, Host.Outcome.next.injEq] at h
    rw [h, List.nil_append]
  | cons mv as ih =>
    rw [List.cons_append]
    cases hs : stepWith p mv s with
    | next u =>
      rw [runWith_cons_next hs] at h ⊢
      exact ih h
    | fault f => simp [runWith, hs] at h
    | refused r => simp [runWith, hs] at h

/-- Without ATOMIC_PUBLISH a step is a sub-step of the relaxed mode. -/
theorem stepWith_relaxed {p : Config.Params} (h : p.atomicPublish = false) (mv : Move) (s : State) :
    stepWith p mv s = relaxedStep p mv s := by
  unfold stepWith
  rw [if_neg (by simp [h])]

/-- A move that is not enabled leaves the state as it is (log entry 9). -/
theorem relaxedStep_of_disabled {mv : Move} {s : State} (h : mv.enabled s = false) (p : Config.Params) :
    relaxedStep p mv s = .next s := by
  cases mv with
  | host =>
    simp only [Move.enabled, hostWordAtPort, portDecoded] at h
    simp only [relaxedStep, hostMove]
    cases hf : fetch s with
    | none => rfl
    | some q =>
      obtain ⟨w, t⟩ := q
      cases hd : decode w with
      | error e => simp [hf, hd] at h
      | ok i => cases i <;> simp [hf, hd] at h ⊢
  | decoder =>
    simp only [Move.enabled, rxbAtPort, portDecoded, Bool.or_eq_false_iff, Bool.not_eq_false',
      List.isEmpty_iff] at h
    simp only [relaxedStep, decoderMove, h.1]
    cases hf : fetch s with
    | none => rfl
    | some q =>
      obtain ⟨w, t⟩ := q
      cases hd : decode w with
      | error e => simp [hd]
      | ok i => cases i <;> simp [hf, hd] at h ⊢
  | mixer f =>
    simp only [Move.enabled] at h
    simp only [relaxedStep, mixerMove]
    cases hc : s.mixPartial.complete with
    | some q => simp [hc] at h
    | none =>
      simp only [hc] at h
      by_cases he : s.mixPartial = PartialSnapshot.empty
      · simp only [he, if_true, mixAtPort, portDecoded] at h ⊢
        simp only [mixerStart]
        cases hf : fetch s with
        | none => rfl
        | some q =>
          obtain ⟨w, t⟩ := q
          cases hd : decode w with
          | error e => simp [hd]
          | ok i => cases i <;> simp [hf, hd] at h ⊢
      · simp only [he, if_false] at h ⊢
        simp [h]

end Sys2Proof.Machine
end

