-- ==== Sys2Proof/Tests/Slice0.lean ====
section
/-! SUPPORT. The model's own tests. Expected values come from 95_test_vectors.md (the vector's name stands in the comment)
or are worked out by hand from a rule. The `test_witness_…` theorems show that each statement's hypotheses can be met. -/

namespace Sys2Proof.Tests

open Sys2Proof.Machine

/-! ### Helpers -/

/-- The outcome is a next state with a property. -/
def holdsNext (o : Host.Outcome State Fault Refusal) (p : State → Bool) : Bool :=
  match o with
  | .next t => p t
  | .fault _ => false
  | .refused _ => false

/-- Reset, then inside a frame. -/
def inFrame (pay : Memory) (position : Position) (prev : Byte) : State :=
  { State.reset with reading := true, position := position, prevByte := prev, payload := pay }

/-- Reset, then with a sample. -/
def withSample (x y : Byte) (valid : Bool) : State :=
  { State.reset with sampleX := x, sampleY := y, sampleValid := valid }

/-- Reset, then with a word at the port. -/
def atPort (w : OpWord) (s : State) : State := { s with input := [w] }

/-- The state of vector W1 before its trailer, with the stream in the history. -/
def beforeW1Trailer : State :=
  { inFrame [(0, 0x80#8), (1, 0x80#8)] 6#3 0x00#8 with
    history := [0x00#8, 0xFF#8, 0x80#8, 0x80#8, 0x00#8, 0x00#8, 0x00#8, 0x00#8].map fun b => .accepted (.rxb b) }

/-- A state whose history explains it: a publish, both motors driven, a record and a refusal. -/
def explained : State :=
  { withSample 0x01#8 0x02#8 true with
    dirA := .reverse, dutyA := 99#7, dutyB := 6#7, refused := true
    diagLog := [{ code := 0x01#8, observed := 0x01#8, expected := 0xFE#8 }]
    history := [.published (some 0x01#8) (some 0x02#8) true, .drove .a .reverse 99#7, .drove .b .forward 6#7,
      .diagnosed { code := 0x01#8, observed := 0x01#8, expected := 0xFE#8 }, .refusal 0x300#10] }

/-- The four outputs as the vectors write them: direction and duty of A, then of B. -/
def outs (s : State) : BitVec 1 × Nat × BitVec 1 × Nat := (s.dirA.toBit, s.dutyA.toNat, s.dirB.toBit, s.dutyB.toNat)

/-! ### Words (30_encoding.md R75 to R80, 95_test_vectors.md section 6), written bit by bit -/

theorem test_decode_rxb : decode 0b0010000000#10 = .ok (.rxb 0x80#8) ∧ decode 0b0011111111#10 = .ok (.rxb 0xFF#8) :=
  ⟨rfl, rfl⟩

theorem test_decode_mix : decode 0b0100000000#10 = .ok .mix := rfl

theorem test_decode_rst : decode 0b1000000000#10 = .ok .rst := rfl

/-- The rows' words numbered as the opcode table numbers them. -/
theorem test_decode_table_word :
    decodeTableWord 16 0x0AB = some (.rxb 0xAB#8) ∧ decodeTableWord 16 0x100 = some .mix
      ∧ decodeTableWord 16 0x200 = some .rst ∧ decodeTableWord 16 0x280 = none := by decide

/-- The encoder writes the same bits. -/
theorem test_encode :
    encode (.rxb 0xA5#8) = 0b0010100101#10 ∧ encode .mix = 0b0100000000#10 ∧ encode .rst = 0b1000000000#10 := by decide

/-- Distinct rows share no word: two rows' patterns differ in a bit that both fix. -/
theorem test_rows_disjoint :
    opcodeTable.Pairwise fun r q => (r.fixed ^^^ q.fixed) &&& r.mask &&& q.mask ≠ 0#10 := by decide

/-! ### Ill-formed terms are refused -/

/-- The ends of the three reserved ranges, and the words beside them. -/
theorem test_reserved_words_are_ill_formed :
    [0x101#10, 0x1FF#10, 0x201#10, 0x280#10, 0x2FF#10, 0x300#10, 0x3FF#10].all (fun w => !OpWord.wellFormed w) = true
      ∧ [0x000#10, 0x0FF#10, 0x100#10, 0x200#10].all OpWord.wellFormed = true := by decide

theorem test_rxb_line_refuses_256 : (Line.rxb 256).wellFormed = false ∧ (Line.rxb 256).words = none := by decide

theorem test_word_line_refuses_1024 : (Line.word 1024).wellFormed = false ∧ (Line.word 1024).words = none := by decide

theorem test_bytes_line_refuses_none_and_256 :
    (Line.bytes []).wellFormed = false ∧ (Line.bytes [1, 256]).wellFormed = false := by decide

theorem test_frame_line_refuses_five_and_256 :
    (Line.frame [1, 2, 3, 4, 5]).wellFormed = false ∧ (Line.frame [1, 2, 3, 4, 5, 256]).wellFormed = false := by decide

theorem test_badframe_line_refuses_six_and_256 :
    (Line.badframe [1, 2, 3, 4, 5, 6]).wellFormed = false
      ∧ (Line.badframe [1, 2, 3, 4, 5, 6, 256]).wellFormed = false := by decide

/-! ### One step of each operation -/

/-- D8: the trailer 0xFF after 0x00 passes and starts a frame. -/
theorem test_rxb_trailer_pair :
    holdsNext (exec (.rxb 0xFF#8) (inFrame [(0, 0xFF#8)] 6#3 0x00#8)) (fun t =>
      t.reading && t.position == 0#3 && t.prevByte == 0xFF#8
        && readSample t == { x := 0xFF#8, y := 0x00#8, valid := true } && t.diagLog == []) = true := by decide

/-- W2: the failing trailer. -/
theorem test_rxb_failing_trailer :
    holdsNext (exec (.rxb 0x01#8) (inFrame [(0, 0xFF#8), (1, 0xFF#8)] 6#3 0x00#8)) (fun t =>
      !t.reading && t.position == 6#3 && readSample t == { x := 0x00#8, y := 0x00#8, valid := false }
        && t.diagLog == [{ code := 0x01#8, observed := 0x01#8, expected := 0xFE#8 }]) = true := by decide

/-- M18, M6, M2, M5: (x, y) and the outputs. -/
theorem test_mix_vectors :
    [((200#8, 200#8), (0#1, 32, 0#1, 99)), ((129#8, 128#8), (0#1, 0, 0#1, 0)), ((0#8, 0#8), (1#1, 57, 1#1, 99)),
      ((255#8, 0#8), (1#1, 99, 1#1, 58))].all (fun v =>
        holdsNext (exec .mix (withSample v.1.1 v.1.2 true)) (fun t => outs t == v.2)) = true := by decide

/-- G1: a sample that is not valid leaves the outputs. -/
theorem test_mix_gate :
    holdsNext (exec .mix { State.reset with dutyA := 96#7, dirB := .reverse, dutyB := 96#7 }) (fun t =>
      outs t == (0#1, 96, 1#1, 96)) = true := by decide

/-- R-3: RST inside a frame, with a record kept. -/
theorem test_rst_keeps_records :
    holdsNext (exec .rst { inFrame [(0, 0xA0#8)] 2#3 0xB0#8 with
        dutyA := 32#7, diagLog := [{ code := 0x01#8, observed := 0x01#8, expected := 0xFE#8 }] }) (fun t =>
      !t.reading && t.position == 0#3 && t.prevByte == 0xFF#8 && t.payload == [] && outs t == (0#1, 0, 0#1, 0)
        && t.diagLog.length == 1) = true := by decide

/-- F-1: the word 0x300 at reset, and an RST after it. -/
theorem test_reserved_word_is_sticky :
    holdsNext (runSteps 2 { State.reset with input := [0x300#10, 0x200#10] }) (fun t =>
      t.refused && t.input == [] && t.sampleValid == false) = true := by decide

/-- The word that `withFetchWord` places is the next one run, before the words that wait. -/
theorem test_with_fetch_word :
    holdsNext (step ((atPort 0x300#10 State.reset).withFetchWord 16 0x0AB)) (fun t =>
      t.prevByte == 0xAB#8 && t.input == [0x300#10] && !t.refused) = true := by decide

/-- D2a: with PREV_RESET = 0x00 a first 0xFF starts a frame; with WMFD's value it does not (D2). -/
theorem test_prev_reset_contrast :
    holdsNext (rxbWith Config.wmfd 0xFF#8 (State.resetWith { Config.wmfd with prevReset := 0x00#8 })) (fun t => t.reading)
        = true
      ∧ holdsNext (exec (.rxb 0xFF#8) State.reset) (fun t => !t.reading) = true := by decide

/-- W3 to W6 and section 5: the clamp and the direction. -/
theorem test_clamp_vectors :
    [(99, 99, 0#1), (100, 99, 0#1), (-150, 99, 1#1), (0, 0, 0#1), (-98, 98, 1#1), (-1, 1, 1#1)].all (fun v =>
      (magOf v.1).toNat == v.2.1 && (dirOf v.1).toBit == v.2.2) = true := by decide

/-- The quantisation contrast of section 4, at (129, 129) and (129, 128). -/
theorem test_quantisation_contrast :
    ((driveMag .truncAxes .a 129#8 129#8).toNat, (driveMag .truncFinal .a 129#8 129#8).toNat) = (1, 0)
      ∧ ((driveDir .exactSign .a 129#8 128#8).toBit, (driveDir .truncFinal .a 129#8 128#8).toBit) = (1#1, 0#1) := by
  decide

/-- Section 3: checksums. -/
theorem test_checksum_vectors :
    sumMod256 [0x0A#8, 0x14#8, 0x1E#8, 0x28#8, 0x32#8, 0x3C#8] = 0xD2#8
      ∧ sumMod256 (List.replicate 6 0xFF#8) = 0xFA#8 ∧ sumMod256 (List.replicate 6 0xC8#8) = 0xB0#8 := by decide

/-! ### Stimulus text (P1, P2 and R84) -/

theorem test_frame_words :
    (Line.frame [0xC8, 0xC8, 0, 0, 0, 0]).words
      = some [0x000#10, 0x0FF#10, 0x0C8#10, 0x0C8#10, 0#10, 0#10, 0#10, 0#10, 0x090#10] := by decide

theorem test_text_of_a_program :
    assembleText ["RST  ; 200".toList, "; only a comment".toList, " RXB 0xfF".toList, ".word 0x300".toList,
      "BYTES 1, 0x0A".toList, "MIX".toList] = some [0x200#10, 0x0FF#10, 0x300#10, 0x001#10, 0x00A#10, 0x100#10] := by
  decide

theorem test_text_refuses : assembleText ["MIX 3".toList] = none ∧ assembleText ["ADD 1".toList] = none
    ∧ assembleText ["RXB 0x1G".toList] = none ∧ assembleText ["RXB 256".toList] = none := by decide

/-! ### Witnesses: the hypotheses of each statement met together, at the ends of their ranges -/

/-- The clauses of `DecoderClassifiesEveryWord`: each case of a word, at the ends of the ranges. -/
theorem test_witness_DecoderClassifiesEveryWord :
    decode 0x000#10 = .ok (.rxb 0x00#8) ∧ decode 0x0FF#10 = .ok (.rxb 0xFF#8) ∧ decode 0x100#10 = .ok .mix
      ∧ decode 0x101#10 = .error (.reservedWord 0x101#10) ∧ decode 0x1FF#10 = .error (.reservedWord 0x1FF#10)
      ∧ decode 0x200#10 = .ok .rst ∧ decode 0x201#10 = .error (.reservedWord 0x201#10)
      ∧ decode 0x2FF#10 = .error (.reservedWord 0x2FF#10) ∧ decode 0x300#10 = .error (.reservedWord 0x300#10)
      ∧ decode 0x3FF#10 = .error (.reservedWord 0x3FF#10) := ⟨rfl, rfl, rfl, rfl, rfl, rfl, rfl, rfl, rfl, rfl⟩

theorem test_witness_DecodeAndEncodeAgreeOnPrograms :
    (Instr.rxb 0xFF#8).wellFormed = true ∧ Instr.mix.wellFormed = true ∧ Instr.rst.wellFormed = true
      ∧ [0x0FF#10, 0x100#10, 0x200#10].mapM decode = .ok [.rxb 0xFF#8, .mix, .rst] := ⟨rfl, rfl, rfl, rfl⟩

theorem test_witness_StepRunsTheDecodedOperation :
    (atPort 0x0AB#10 State.reset).input = [0x0AB#10] ∧ decode 0x0AB#10 = .ok (.rxb 0xAB#8)
      ∧ (Instr.rxb 0xAB#8).wellFormed = true := ⟨rfl, rfl, rfl⟩

theorem test_witness_EmptyPortLeavesTheStateAlone : State.reset.input = [] := rfl

theorem test_witness_ReservedWordIsRefusedAndRecorded :
    [0x101#10, 0x1FF#10, 0x201#10, 0x2FF#10, 0x300#10, 0x3FF#10].all (fun w =>
      (atPort w State.reset).input == [w] &&
        decide ((0x101 ≤ w.toNat ∧ w.toNat ≤ 0x1FF) ∨ (0x201 ≤ w.toNat ∧ w.toNat ≤ 0x2FF) ∨ 0x300 ≤ w.toNat)) = true := by
  decide

theorem test_witness_RunningWordsEqualsRunningOperations : (withSample 1#8 2#8 true).input = [] := rfl

/-- A lone 0xFF at reset, and a byte other than 0xFF after 0x00. -/
theorem test_witness_RxbIdleOnlyUpdatesPrevByte :
    (State.reset.reading = false ∧ ¬ (State.reset.prevByte = 0x00#8 ∧ (0xFF#8 : Byte) = 0xFF#8))
      ∧ ({ State.reset with prevByte := 0x00#8 }.reading = false
        ∧ ¬ ({ State.reset with prevByte := 0x00#8 }.prevByte = 0x00#8 ∧ (0xFE#8 : Byte) = 0xFF#8)) := by decide

theorem test_witness_RxbStartEntersTheFrame :
    { State.reset with prevByte := 0x00#8 }.reading = false
      ∧ { State.reset with prevByte := 0x00#8 }.prevByte = 0x00#8 := by decide

/-- The first and the last payload position. -/
theorem test_witness_RxbAppendStoresAtPosition :
    ((inFrame [] 0#3 0xFF#8).reading = true ∧ (inFrame [] 0#3 0xFF#8).position.toNat < 6
        ∧ ¬ ((inFrame [] 0#3 0xFF#8).prevByte = 0x00#8 ∧ (0xFF#8 : Byte) = 0xFF#8))
      ∧ ((inFrame [] 5#3 0x00#8).reading = true ∧ (inFrame [] 5#3 0x00#8).position.toNat < 6
        ∧ ¬ ((inFrame [] 5#3 0x00#8).prevByte = 0x00#8 ∧ (0xFE#8 : Byte) = 0xFF#8)) := by decide

/-- D5 and D6: restarts at positions 1 and 5. -/
theorem test_witness_RxbRestartDiscardsThePartialFrame :
    ((inFrame [] 1#3 0x00#8).reading = true ∧ (inFrame [] 1#3 0x00#8).position.toNat < 6
        ∧ (inFrame [] 1#3 0x00#8).prevByte = 0x00#8)
      ∧ ((inFrame [(0, 1#8)] 5#3 0x00#8).reading = true ∧ (inFrame [(0, 1#8)] 5#3 0x00#8).position.toNat < 6
        ∧ (inFrame [(0, 1#8)] 5#3 0x00#8).prevByte = 0x00#8) := by decide

/-- The sum of the six bytes of PAY. -/
def paySum (s : State) : Nat :=
  (s.payload.read 0).toNat + (s.payload.read 1).toNat + (s.payload.read 2).toNat
    + (s.payload.read 3).toNat + (s.payload.read 4).toNat + (s.payload.read 5).toNat

/-- W1's trailer 0x00 passes (the sum is 256) and 0x01 fails; D8's trailer 0xFF completes a marker. -/
theorem test_witness_RxbTrailerValidatesTheFrame :
    beforeW1Trailer.reading = true ∧ beforeW1Trailer.position = 6#3
      ∧ (0x00#8 : Byte).toNat = paySum beforeW1Trailer % 256 ∧ (0x01#8 : Byte) ≠ 0x00#8
      ∧ (inFrame [(0, 0xFF#8)] 6#3 0x00#8).reading = true ∧ (inFrame [(0, 0xFF#8)] 6#3 0x00#8).position = 6#3
      ∧ (0xFF#8 : Byte).toNat = paySum (inFrame [(0, 0xFF#8)] 6#3 0x00#8) % 256 := by decide

/-- D8 (pass: the sum is 0xFF) and D9 (fail: the sum is 0x01). -/
theorem test_witness_TrailerThatCompletesAMarker :
    [((0, 0xFF#8), 0xFF#8), ((0, 0x01#8), 0x01#8)].all (fun (v : Host.Cell × Byte) =>
      (inFrame [v.1] 6#3 0x00#8).reading && (inFrame [v.1] 6#3 0x00#8).position == 6#3
        && (inFrame [v.1] 6#3 0x00#8).prevByte == 0x00#8
        && v.2.toNat == paySum (inFrame [v.1] 6#3 0x00#8) % 256) = true := by decide

/-- Two states that agree on the decoder's part and differ elsewhere. -/
theorem test_witness_RxbStaysInsideTheDecoder :
    Config.wmfd.atomicPublish = true ∧ beforeW1Trailer.decoderView = { beforeW1Trailer with dutyA := 5#7 }.decoderView
      ∧ beforeW1Trailer ≠ { beforeW1Trailer with dutyA := 5#7 } := by decide

/-- W7 with D1's frame: the right checksum and a wrong one; a payload may hold 0x00 and 0xFF apart. -/
theorem test_witness_FrameDecodesAsSentFromEveryState :
    hasMarker (Payload.mk 0xFF#8 0x00#8 0x01#8 0xFF#8 0x00#8 0x00#8).bytes = false
      ∧ (0xFF#8 : Byte) = (Payload.mk 0xFF#8 0x00#8 0x01#8 0xFF#8 0x00#8 0x00#8).checksum
      ∧ (0xFE#8 : Byte) ≠ (Payload.mk 0xFF#8 0x00#8 0x01#8 0xFF#8 0x00#8 0x00#8).checksum := by decide

/-- The frame invariant in W1's state before the trailer. -/
theorem test_beforeW1Trailer_frameInv : beforeW1Trailer.FrameInv where
  position_le := by decide
  reading_stream := fun _ => ⟨[], by decide⟩
  prev_at_start := by decide
  prev_in_payload := by decide
  no_marker_inside := by decide
  prev_is_last := by decide

theorem test_witness_PassingPublishNeedsAWholeFrame :
    beforeW1Trailer.FrameInv ∧ ∃ t, exec (.rxb 0x00#8) beforeW1Trailer = .next t
      ∧ Event.published (some 0x80#8) (some 0x80#8) true ∈ t.history.drop beforeW1Trailer.history.length :=
  ⟨test_beforeW1Trailer_frameInv, _, rfl, by decide⟩

/-- D3's stream with a MIX, after a frame's marker and an RST. -/
theorem test_witness_NoMarkerNoFrame :
    ∃ t, execAll (feed [0x00#8, 0xFF#8, 0x01#8] ++ [.rst] ++ feed [0x01#8, 0x00#8, 0x00#8, 0xFE#8, 0xFF#8] ++ [.mix])
        State.reset = .next t
      ∧ hasMarker (bytesSinceReset t.history) = false
      ∧ bytesSinceReset t.history = [0x01#8, 0x00#8, 0x00#8, 0xFE#8, 0xFF#8] :=
  ⟨_, rfl, by decide, by decide⟩

/-- The smallest nonzero value beside WMFD's, and a run that consumes a byte. -/
theorem test_witness_NonzeroPrevResetValuesAreEquivalent :
    Config.wmfd.prevReset ≠ 0x00#8 ∧ (0x01#8 : Byte) ≠ 0x00#8
      ∧ ∃ t, execAllWith Config.wmfd [.rst, .rxb 0xFF#8] (State.resetWith Config.wmfd) = .next t
        ∧ bytesSinceReset t.history ≠ [] := ⟨by decide, by decide, _, rfl, by decide⟩

theorem test_witness_MixDrivesBothMotors :
    (withSample 0#8 0#8 false).sampleValid = false ∧ (withSample 255#8 0#8 true).sampleValid = true := by decide

/-- Both values of the parameter, and a sample of each kind. -/
theorem test_witness_OtherQuantisationsFollowTheirRules :
    (withSample 129#8 128#8 true).sampleValid = true ∧ (withSample 129#8 128#8 false).sampleValid = false
      ∧ { Config.wmfd with speedQuant := .truncAxes }.speedQuant = .truncAxes
      ∧ { Config.wmfd with speedQuant := .exactSign }.speedQuant = .exactSign := by decide

/-- Between two MIX: a partial frame, which publishes nothing, and another MIX. -/
theorem test_witness_MixStaysInsideTheMixer :
    ∃ t v, exec .mix (withSample 1#8 2#8 true) = .next t
      ∧ execAll (feed [0x00#8, 0xFF#8, 0x07#8] ++ [.mix]) t = .next v ∧ v.reading = true
      ∧ ∀ e ∈ v.history.drop t.history.length,
          (match e with
            | .published _ _ _ => false
            | _ => true) = true :=
  ⟨_, _, rfl, rfl, by decide, by decide⟩

/-- Speeds on both sides of zero. -/
theorem test_witness_ClampAndDirectionOfASpeed : (-1 : Int) < 0 ∧ (0 : Int) ≤ 0 := by decide

/-- Motor B's scaled speed at 1980 and at the value below it. -/
theorem test_witness_DutySaturatesExactlyFrom1980 :
    (withSample 148#8 198#8 true).sampleValid = true ∧ scaledSpeed .b 148#8 198#8 = 1980
      ∧ scaledSpeed .b 147#8 198#8 = 1965 ∧ (driveMag .truncFinal .b 147#8 198#8).toNat = 98 := by decide

theorem test_witness_DrivenValuesDependOnTheSampleAlone :
    (withSample 1#8 2#8 true).sampleValid = true ∧ explained.sampleValid = true
      ∧ (withSample 1#8 2#8 true).sampleX = explained.sampleX ∧ (withSample 1#8 2#8 true).sampleY = explained.sampleY
      ∧ (withSample 1#8 2#8 true).outputs ≠ explained.outputs := by decide

/-- Noise after a command: the outputs are held, the sample is not valid. -/
theorem test_witness_HeldCommandSurvivesNoise :
    ∃ t, execAll (feed [0x00#8, 0xFF#8, 0x55#8]) { State.reset with dutyA := 96#7 } = .next t ∧ t.sampleValid = false
      ∧ t.dutyA = 96#7 := ⟨_, rfl, by decide, by decide⟩

theorem test_witness_EveryStepKeepsPayCanonical :
    (atPort 0x001#10 (inFrame [(0, 7#8)] 1#3 0x07#8)).payload.wf
      ∧ ∃ t, step (atPort 0x001#10 (inFrame [(0, 7#8)] 1#3 0x07#8)) = .next t ∧ t.payload = [(0, 7#8), (1, 1#8)] :=
  ⟨by decide, _, rfl, by decide⟩

theorem test_witness_EveryStepKeepsTheFrameInvariant :
    beforeW1Trailer.FrameInv ∧ ∃ t, step beforeW1Trailer = .next t := ⟨test_beforeW1Trailer_frameInv, _, rfl⟩

/-- The history of `explained` explains it. -/
theorem test_explained_historyInv : explained.HistoryInv where
  sample_eq := by decide
  outputs_eq := by decide
  records_eq := by decide
  refused_eq := by decide

theorem test_witness_EveryStepKeepsTheHistoryTrue :
    explained.HistoryInv ∧ ∃ t, step explained = .next t := ⟨test_explained_historyInv, _, rfl⟩

/-- D3's first bytes: 0x00 last, with no marker. -/
theorem test_witness_EveryStepKeepsNoFrameWithoutMarker :
    ∃ s t, execAll (feed [0x01#8, 0x00#8]) State.reset = .next s ∧ s.NoMarkerInv
      ∧ step (s.withFetchWord 16 0x0FE) = .next t ∧ hasMarker (bytesSinceReset t.history) = false :=
  ⟨_, _, rfl, ⟨fun _ => ⟨rfl, rfl⟩, rfl⟩, rfl, by decide⟩

theorem test_witness_EveryStepKeepsDutiesInRange :
    explained.dutiesInRange ∧ ∃ t, step explained = .next t := ⟨by unfold State.dutiesInRange; decide, _, rfl⟩

theorem test_witness_EveryStepKeepsNothingInFlight :
    explained.nothingInFlight ∧ ∃ t, step explained = .next t := ⟨by unfold State.nothingInFlight; decide, _, rfl⟩

/-- The mark set by a reserved word, kept by an operation, and not set by one. -/
theorem test_witness_RefusedIsStickyAndOnlyReservedWordsSetIt :
    (∃ t, step (atPort 0x300#10 State.reset) = .next t ∧ t.refused = true)
      ∧ (∃ t, step (atPort 0x200#10 explained) = .next t ∧ t.refused = true)
      ∧ ∃ t, step (atPort 0x200#10 State.reset) = .next t ∧ t.refused = false :=
  ⟨⟨_, rfl, by decide⟩, ⟨_, rfl, by decide⟩, _, rfl, by decide⟩

/-- W1's state with a wrong trailer at the port, and with the right one. -/
theorem test_witness_ExactlyFailingTrailersAddARecord :
    (∃ t, step (atPort 0x001#10 beforeW1Trailer) = .next t ∧ t.diagLog.length = 1)
      ∧ ∃ t, step (atPort 0x000#10 beforeW1Trailer) = .next t ∧ t.diagLog = [] :=
  ⟨⟨_, rfl, by decide⟩, _, rfl, by decide⟩

/-- The sample changed by an RST, by a passing and by a failing trailer. -/
theorem test_witness_OnlyTrailersAndResetWriteTheSample :
    (∃ t, step (atPort 0x200#10 explained) = .next t ∧ readSample t ≠ readSample explained)
      ∧ (∃ t, step (atPort 0x000#10 beforeW1Trailer) = .next t ∧ readSample t ≠ readSample beforeW1Trailer)
      ∧ ∃ t, step (atPort 0x001#10 { beforeW1Trailer with sampleValid := true }) = .next t
        ∧ readSample t ≠ readSample { beforeW1Trailer with sampleValid := true } :=
  ⟨⟨_, rfl, by decide⟩, ⟨_, rfl, by decide⟩, _, rfl, by decide⟩

/-- The outputs changed by an RST and by a MIX. -/
theorem test_witness_OnlyValidMixAndResetWriteTheOutputs :
    (∃ t, step (atPort 0x200#10 explained) = .next t ∧ t.outputs ≠ explained.outputs)
      ∧ ∃ t, step (atPort 0x100#10 explained) = .next t ∧ t.outputs ≠ explained.outputs :=
  ⟨⟨_, rfl, by decide⟩, _, rfl, by decide⟩

/-- The ends of PAY and the address after it. -/
theorem test_witness_PayReadsBackWhatIsWritten :
    0 ≤ 5 ∧ 5 ≤ 5 ∧ 6 ≤ 6 ∧ memRead State.reset 5 = .ok 0x00#8
      ∧ memRead State.reset 6 = .error (.payOutOfRange 6) := ⟨by decide, by decide, by decide, rfl, rfl⟩

/-- R197's swap, and two sums 256 apart. -/
theorem test_witness_ChecksumMissesReorderingAndCompensation :
    ([0x10#8, 0x20#8] : List Byte).Perm [0x20#8, 0x10#8]
      ∧ (([0x80#8, 0x80#8] : List Byte).map BitVec.toNat).sum = (([0x00#8, 0x00#8] : List Byte).map BitVec.toNat).sum + 256 * 1 :=
  by decide

theorem test_witness_RelaxedTrailerPublishesFieldByField :
    (atPort 0x000#10 beforeW1Trailer).input = [encode (.rxb 0x00#8)] ∧ beforeW1Trailer.pubPending = []
      ∧ (atPort 0x001#10 beforeW1Trailer).input = [encode (.rxb 0x01#8)]
      ∧ beforeW1Trailer.reading = true ∧ beforeW1Trailer.position = 6#3 ∧ checksum beforeW1Trailer = .ok 0x00#8 :=
  ⟨rfl, rfl, rfl, rfl, rfl, rfl⟩

theorem test_witness_RelaxedMixAgreesInEveryReadOrder :
    (atPort 0x100#10 explained).input = [encode .mix] ∧ explained.mixPartial = PartialSnapshot.empty
      ∧ SampleField.x ≠ .valid ∧ SampleField.valid ≠ .y ∧ SampleField.x ≠ .y := by decide

/-- A run that leaves writes pending is not over (10_state.md R37); three more turns of the decoder complete it. -/
theorem test_completed_run :
    completedRun relaxedParams [.decoder] (atPort 0x000#10 beforeW1Trailer) = none
      ∧ (completedRun relaxedParams (List.replicate 4 .decoder) (atPort 0x000#10 beforeW1Trailer)).isSome = true := by
  decide

/-- A passing trailer and a MIX whose reads fall between the pending writes, then the decoder's turn for ever. -/
def fairSchedule : Schedule := fun n =>
  [Move.decoder, .mixer .x, .decoder, .mixer .y, .decoder, .mixer .valid, .decoder, .mixer .valid].getD n .decoder

/-- W1's trailer and a MIX at the port. -/
def fairStart : State := { beforeW1Trailer with input := [0x000#10, 0x100#10] }

/-- The state after the eight moves. -/
def fairEnd : State := (completedRun relaxedParams ((List.range 8).map fairSchedule) fairStart).getD State.reset

theorem test_fairEnd_reached : fairSchedule.outcomeAt relaxedParams fairStart 8 = .next fairEnd := rfl

theorem test_fairEnd_at_rest (mv : Move) : mv.enabled fairEnd = false := by
  cases mv with
  | host => decide
  | decoder => decide
  | mixer f => cases f <;> decide

theorem test_fairEnd_stays (k : Nat) : fairSchedule.outcomeAt relaxedParams fairStart (8 + k) = .next fairEnd := by
  induction k with
  | zero => exact test_fairEnd_reached
  | succ k ih =>
    unfold Schedule.outcomeAt at ih ⊢
    rw [← Nat.add_assoc, List.range_succ, List.map_append, runWith_append_next ih, List.map_cons, List.map_nil,
      runWith_cons_next ((stepWith_relaxed rfl _ _).trans (relaxedStep_of_disabled (test_fairEnd_at_rest _) _)),
      runWith_nil]

theorem test_witness_FairRelaxedRunsComplete :
    relaxedParams.atomicPublish = false ∧ fairSchedule.fair relaxedParams fairStart := by
  refine ⟨rfl, fun a n => ⟨8 + n, by omega, fun t ht hen => ?_⟩⟩
  rw [test_fairEnd_stays n, Host.Outcome.next.injEq] at ht
  obtain ⟨mv, -, hmv⟩ := hen
  rw [← ht, test_fairEnd_at_rest mv] at hmv
  cases hmv

theorem test_witness_WmfdSnapshotIsTheLastPublish : explained.HistoryInv := test_explained_historyInv

theorem test_witness_PseudoInstructionsExpandToRxbWords : ([0xFF#8] : List Byte) ≠ [] := by decide

/-- States that agree on the sample and the outputs and differ in the decoder's own state. -/
theorem test_witness_ObservationPortShowsSampleAndOutputs :
    readSample { explained with reading := true } = readSample explained
      ∧ { explained with reading := true }.outputs = explained.outputs ∧ { explained with reading := true } ≠ explained := by
  decide

end Sys2Proof.Tests
end

