-- ==== Sys2Proof/Proofs/Scope.lean ====
section
/-! The step and the words at the port: what a step runs, that no operation reads or writes the port, that a program of
words runs as its operations do, and the parametric step at WMFD's values (00_scope.md R6, R8; 30_encoding.md R75). -/

namespace Sys2Proof

/-! ### The decoder gives an encoded operation back -/

@[simp] theorem OpWord.kind_encode_rxb (b : Byte) : OpWord.kind (encode (.rxb b)) = 0b00#2 :=
  BitVec.extractLsb'_append_eq_left

@[simp] theorem OpWord.data_encode_rxb (b : Byte) : OpWord.data (encode (.rxb b)) = b :=
  BitVec.extractLsb'_append_eq_right

/-- The words of R76 to R78 decode to the operations they are written for. -/
@[simp] theorem decode_encode (i : Instr) : decode (encode i) = .ok i := by
  cases i with
  | rxb b => rw [decode, if_pos (OpWord.kind_encode_rxb b), OpWord.data_encode_rxb]
  | mix => rfl
  | rst => rfl

namespace Machine

/-! ### The words at the port, replaced -/

/-- The state with other words at the port (log entry 1). -/
def State.withPort (s : State) (ws : List OpWord) : State := { s with input := ws }

@[simp] theorem State.withPort_input (s : State) (ws : List OpWord) : (s.withPort ws).input = ws := rfl

@[simp] theorem State.withPort_withPort (s : State) (ws vs : List OpWord) :
    (s.withPort ws).withPort vs = s.withPort vs := rfl

theorem State.withPort_of_input_eq {s : State} {ws : List OpWord} (h : s.input = ws) : s.withPort ws = s := by
  rw [← h]
  rfl

/-! ### The step -/

/-- A step on a word that encodes an operation runs it on the state with the word taken. -/
theorem step_of_decode {s : State} {w : OpWord} {ws : List OpWord} {i : Instr}
    (hin : s.input = w :: ws) (hd : decode w = .ok i) : step s = exec i (s.withPort ws) := by
  rw [step_cons hin, hd, State.withPort]

/-! ### No operation reads or writes the port

Other words can be put at the port before an operation or after it. -/

section PortFrame

variable (ws : List OpWord) (b : Byte) (s : State)

theorem rxbMiddle_withPort : rxbMiddle b (s.withPort ws) = (rxbMiddle b s).withPort ws := by
  by_cases ht : atTrailer s = true
  · by_cases hb : b = sumMod256 (payloadPrefix s 6)
    · rw [rxbMiddle_pass ht hb, rxbMiddle_pass (s := s.withPort ws) ht hb]
      rfl
    · rw [rxbMiddle_fail ht hb, rxbMiddle_fail (s := s.withPort ws) ht hb]
      rfl
  · by_cases ha : s.reading = true ∧ s.position.toNat < 6 ∧ marker s b = false
    · rw [rxbMiddle_append ht ha, rxbMiddle_append (s := s.withPort ws) ht ha]
      rfl
    · rw [rxbMiddle_none ht ha, rxbMiddle_none (s := s.withPort ws) ht ha]

theorem finishByte_withPort (start : Bool) :
    finishByte start b (s.withPort ws) = (finishByte start b s).withPort ws := by
  cases start <;> rfl

theorem rxbResult_withPort : rxbResult b (s.withPort ws) = (rxbResult b s).withPort ws :=
  calc rxbResult b (s.withPort ws)
    _ = finishByte (marker s b) b (rxbMiddle b ((s.record (.accepted (.rxb b))).withPort ws)) := rfl
    _ = (rxbResult b s).withPort ws := by rw [rxbMiddle_withPort, finishByte_withPort, rxbResult]

theorem mixResult_withPort : mixResult (s.withPort ws) = (mixResult s).withPort ws := by
  by_cases hv : s.sampleValid = true
  · rw [mixResult_of_valid hv, mixResult_of_valid (s := s.withPort ws) hv]
    rfl
  · rw [Bool.not_eq_true] at hv
    rw [mixResult_of_invalid hv, mixResult_of_invalid (s := s.withPort ws) hv]
    rfl

theorem rstResult_withPort : rstResult (s.withPort ws) = (rstResult s).withPort ws := rfl

theorem execResult_withPort (i : Instr) : execResult i (s.withPort ws) = (execResult i s).withPort ws := by
  cases i with
  | rxb b => exact rxbResult_withPort ws b s
  | mix => exact mixResult_withPort ws s
  | rst => exact rstResult_withPort ws s

end PortFrame

/-! ### Runs -/

/-- A run of operations goes on from what its first operation leaves. -/
theorem execAll_cons (i : Instr) (is : List Instr) (s : State) : execAll (i :: is) s = execAll is (execResult i s) := by
  simp only [execAll, exec_eq]

/-- A step on an encoded operation leaves what the operation leaves and the words behind it. -/
theorem step_encode (i : Instr) (ws : List OpWord) (s : State) :
    step (s.withPort (encode i :: ws)) = .next ((execResult i s).withPort ws) := by
  rw [step_of_decode rfl (decode_encode i), State.withPort_withPort, exec_eq, execResult_withPort]

/-- Words that encode a program run as the program's operations run with nothing at the port. -/
theorem runSteps_map_encode (is : List Instr) (s : State) :
    runSteps is.length (s.withPort (is.map encode)) = execAll is (s.withPort []) := by
  induction is generalizing s with
  | nil => rfl
  | cons i is ih =>
    calc runSteps (is.length + 1) (s.withPort (encode i :: is.map encode))
      _ = runSteps is.length ((execResult i s).withPort (is.map encode)) := by simp only [runSteps, step_encode]
      _ = execAll is ((execResult i s).withPort []) := ih _
      _ = execAll (i :: is) (s.withPort []) := by rw [execAll_cons, execResult_withPort]

/-! ### The parametric block at WMFD's values -/

theorem execWith_wmfd (i : Instr) (s : State) : execWith Config.wmfd i s = exec i s := by
  cases i <;> rfl

theorem atomicStep_wmfd (s : State) : atomicStep Config.wmfd s = step s := by
  cases hf : fetch s with
  | none => simp only [atomicStep, step, hf]
  | some q =>
    obtain ⟨w, t⟩ := q
    cases hd : decode w with
    | ok i => simp only [atomicStep, step, hf, hd, execWith_wmfd]
    | error e => simp only [atomicStep, step, hf, hd]

/-- With ATOMIC_PUBLISH a step takes the next word, whatever the move. -/
theorem stepWith_atomic {p : Config.Params} (h : p.atomicPublish = true) (mv : Move) (s : State) :
    stepWith p mv s = atomicStep p s := by
  rw [stepWith, if_pos h]

/-! ### The obligations -/

/-- Settles O4: the operation the front word decodes to is the one run; that it is well formed is not needed. -/
theorem stepRunsTheDecodedOperation : Obligations.StepRunsTheDecodedOperation := by
  intro s w ws i hin hd _
  exact step_of_decode hin hd

/-- Settles O9, by induction on the program (`runSteps_map_encode`): no operation reads or writes the port, so each step
takes its own word and leaves those behind it. -/
theorem runningWordsEqualsRunningOperations : Obligations.RunningWordsEqualsRunningOperations := by
  intro is s hin
  calc runSteps is.length (s.withPort (is.map encode))
    _ = execAll is (s.withPort []) := runSteps_map_encode is s
    _ = execAll is s := by rw [State.withPort_of_input_eq hin]

/-- Settles O52: WMFD has ATOMIC_PUBLISH, so the move is not read, and `exec` takes WMFD's values. -/
theorem parametricBlockAtWmfdIsWmfd : Obligations.ParametricBlockAtWmfdIsWmfd := by
  intro mv s
  rw [stepWith_atomic wmfd_atomicPublish, atomicStep_wmfd]

end Machine

end Sys2Proof
end

/-! Invariants of the state and who writes what (10_state.md R21 to R38), the same block under another PREV_RESET
(70_reset_and_hazards.md R193), and fair runs of the relaxed mode (60_exceptions.md R174).

First the words a step meets, what each operation leaves in each part of the state, and what an event adds to what the
history says; then the obligations about WMFD's steps, each next to the invariant it is about; then the operations and the
relaxed moves for every value of the parameters, and the two obligations about runs under a schedule. -/

namespace Sys2Proof

/-! ### Words: what decodes is an encoding, and what does not is reserved -/

theorem OpWord.eq_encode_rxb_of_kind {w : OpWord} (h : w.kind = 0b00#2) : w = encode (.rxb w.data) := by
  have hs : w = w.kind ++ w.data := by
    apply BitVec.eq_of_toNat_eq
    simp only [OpWord.kind, OpWord.data, BitVec.toNat_append, BitVec.extractLsb'_toNat]
    rw [← Nat.shiftLeft_add_eq_or_of_lt (by omega)]
    have hw := w.isLt
    simp only [Nat.shiftRight_eq_div_pow, Nat.shiftLeft_eq]
    omega
  rw [h] at hs
  exact hs

theorem encode_not_reserved (i : Instr) : (encode i).reserved = false := by
  cases i with
  | rxb b =>
    have hb : (encode (.rxb b)).toNat = b.toNat := (BitVec.toNat_append 0b00#2 b).trans (by simp)
    have hlt := b.isLt
    simp only [OpWord.reserved, hb, Bool.or_eq_false_iff, Bool.and_eq_false_iff, decide_eq_false_iff_not]
    omega
  | mix => rfl
  | rst => rfl

theorem OpWord.reserved_of_ne {w : OpWord} (hkind : w.kind ≠ 0b00#2) (hmix : w ≠ 0x100#10) (hrst : w ≠ 0x200#10) :
    w.reserved = true := by
  have hge : 0x100 ≤ w.toNat := by
    by_contra hlt
    apply hkind
    apply BitVec.eq_of_toNat_eq
    simp only [OpWord.kind, BitVec.extractLsb'_toNat, Nat.shiftRight_eq_div_pow, BitVec.toNat_ofNat]
    omega
  simp only [OpWord.reserved, Bool.or_eq_true, Bool.and_eq_true, decide_eq_true_eq]
  bv_omega

/-- A word encodes an operation, or it is reserved (30_encoding.md R76 to R80). -/
theorem OpWord.eq_encode_or_reserved (w : OpWord) : (∃ i, w = encode i) ∨ w.reserved = true := by
  by_cases hkind : w.kind = 0b00#2
  · exact .inl ⟨_, OpWord.eq_encode_rxb_of_kind hkind⟩
  by_cases hmix : w = 0x100#10
  · exact .inl ⟨.mix, hmix⟩
  by_cases hrst : w = 0x200#10
  · exact .inl ⟨.rst, hrst⟩
  exact .inr (OpWord.reserved_of_ne hkind hmix hrst)

theorem decode_of_reserved {w : OpWord} (h : w.reserved = true) : decode w = .error (.reservedWord w) := by
  unfold decode
  split_ifs with hkind hmix hrst
  · rw [OpWord.eq_encode_rxb_of_kind hkind, encode_not_reserved] at h
    cases h
  · rw [hmix] at h
    cases h
  · rw [hrst] at h
    cases h
  · rfl

theorem decode_eq_ok_iff {w : OpWord} {i : Instr} : decode w = .ok i ↔ w = encode i := by
  constructor
  · intro h
    rcases w.eq_encode_or_reserved with ⟨j, rfl⟩ | hr
    · rw [decode_encode, Except.ok.injEq] at h
      rw [h]
    · rw [decode_of_reserved hr] at h
      cases h
  · rintro rfl
    exact decode_encode i

theorem decode_eq_error_iff {w : OpWord} {e : DecodeError} :
    decode w = .error e ↔ w.reserved = true ∧ e = .reservedWord w := by
  rcases w.eq_encode_or_reserved with ⟨j, rfl⟩ | hr
  · simp [encode_not_reserved]
  · simp [decode_of_reserved hr, hr, eq_comm]

namespace Machine

/-- The word at the port, in three cases: none, an operation's, a reserved one (30_encoding.md R80). -/
theorem port_cases (s : State) :
    s.input = [] ∨ (∃ i ws, s.input = encode i :: ws) ∨ ∃ w ws, s.input = w :: ws ∧ w.reserved = true := by
  cases hi : s.input with
  | nil => exact .inl rfl
  | cons w ws =>
    rcases w.eq_encode_or_reserved with ⟨i, rfl⟩ | hr
    · exact .inr (.inl ⟨i, ws, rfl⟩)
    · exact .inr (.inr ⟨w, ws, rfl, hr⟩)

section PortParts

variable (s : State) (ws : List OpWord)

@[simp] theorem State.withPort_history : (s.withPort ws).history = s.history := rfl
@[simp] theorem State.withPort_pubPending : (s.withPort ws).pubPending = s.pubPending := rfl
@[simp] theorem State.withPort_mixPartial : (s.withPort ws).mixPartial = s.mixPartial := rfl
@[simp] theorem State.withPort_refused : (s.withPort ws).refused = s.refused := rfl
@[simp] theorem readSample_withPort : readSample (s.withPort ws) = readSample s := rfl
@[simp] theorem State.withPort_outputs : (s.withPort ws).outputs = s.outputs := rfl

end PortParts

/-! ### The step, said with what each operation leaves -/

theorem step_of_encode {s : State} {i : Instr} {ws : List OpWord} (h : s.input = encode i :: ws) :
    step s = .next (execResult i (s.withPort ws)) := by
  rw [step_of_decode h (decode_encode i), exec_eq]

theorem step_of_reserved {s : State} {w : OpWord} {ws : List OpWord} (h : s.input = w :: ws)
    (hr : w.reserved = true) : step s = .next (refuse w (s.withPort ws)) := by
  rw [step_cons h, decode_of_reserved hr]
  rfl

/-- What a step leaves: the same state, what the operation at the port leaves, or the refusal of the word there. -/
theorem step_effect {s t : State} (h : step s = .next t) :
    (s.input = [] ∧ t = s)
    ∨ (∃ i ws, s.input = encode i :: ws ∧ t = execResult i (s.withPort ws))
    ∨ (∃ w ws, s.input = w :: ws ∧ w.reserved = true ∧ t = refuse w (s.withPort ws)) := by
  rcases port_cases s with hi | ⟨i, ws, hi⟩ | ⟨w, ws, hi, hr⟩
  · rw [step_empty hi, Host.Outcome.next.injEq] at h
    exact .inl ⟨hi, h.symm⟩
  · rw [step_of_encode hi, Host.Outcome.next.injEq] at h
    exact .inr (.inl ⟨i, ws, hi, h.symm⟩)
  · rw [step_of_reserved hi hr, Host.Outcome.next.injEq] at h
    exact .inr (.inr ⟨w, ws, hi, hr, h.symm⟩)

/-- A property that does not look at the port, and that every operation and every refusal keep, is kept by every step. -/
theorem step_keeps {P : State → Prop} (hport : ∀ s ws, P s → P (s.withPort ws))
    (hexec : ∀ i s, P s → P (execResult i s)) (hrefuse : ∀ w s, P s → P (refuse w s))
    (s t : State) (hs : P s) (h : step s = .next t) : P t := by
  rcases step_effect h with ⟨-, rfl⟩ | ⟨i, ws, -, rfl⟩ | ⟨w, ws, -, -, rfl⟩
  · exact hs
  · exact hexec i _ (hport s ws hs)
  · exact hrefuse w _ (hport s ws hs)

/-! ### What RXB leaves in each part of the state (40_decoder.md R117) -/

section RxbParts

variable (b : Byte) (s : State)

/-- RXB writes the decoder's own state, the sample, the records and the history, and nothing else. -/
theorem rxbResult_frame : rxbResult b s = { s with
    prevByte := (rxbResult b s).prevByte, reading := (rxbResult b s).reading, position := (rxbResult b s).position
    payload := (rxbResult b s).payload, sampleX := (rxbResult b s).sampleX, sampleY := (rxbResult b s).sampleY
    sampleValid := (rxbResult b s).sampleValid, diagLog := (rxbResult b s).diagLog
    history := (rxbResult b s).history } := by
  rcases rxbResult_cases b s with ⟨-, -, -, h⟩ | ⟨-, -, h⟩ | ⟨-, -, -, -, h⟩ | ⟨-, -, h⟩ | ⟨-, -, h⟩ <;> rw [h]

/-- RXB ends with its byte in `prev_byte` (40_decoder.md R109). -/
@[simp] theorem rxbResult_prevByte : (rxbResult b s).prevByte = b := by
  rcases rxbResult_cases b s with ⟨-, -, -, h⟩ | ⟨-, -, h⟩ | ⟨-, -, -, -, h⟩ | ⟨-, -, h⟩ | ⟨-, -, h⟩ <;> rw [h]

@[simp] theorem rxbResult_outputs : (rxbResult b s).outputs = s.outputs := by rw [rxbResult_frame]; rfl
@[simp] theorem rxbResult_pubPending : (rxbResult b s).pubPending = s.pubPending := by rw [rxbResult_frame]
@[simp] theorem rxbResult_mixPartial : (rxbResult b s).mixPartial = s.mixPartial := by rw [rxbResult_frame]
@[simp] theorem rxbResult_refused : (rxbResult b s).refused = s.refused := by rw [rxbResult_frame]

/-- Only a trailer writes the sample: the first two payload bytes on a pass, `valid` alone on a fail. -/
theorem rxbResult_sample : readSample (rxbResult b s) =
    if atTrailer s = true then
      (if b = sumMod256 (payloadPrefix s 6) then { x := s.payload.read 0, y := s.payload.read 1, valid := true }
      else { x := s.sampleX, y := s.sampleY, valid := false })
    else readSample s := by
  rcases rxbResult_cases b s with ⟨ht, -, -, h⟩ | ⟨ht, -, h⟩ | ⟨ht, -, -, -, h⟩ | ⟨ht, hb, h⟩ | ⟨ht, hb, h⟩ <;>
    rw [h] <;> simp [readSample, *]

/-- Only a failing trailer adds a record. -/
theorem rxbResult_diagLog : (rxbResult b s).diagLog =
    if atTrailer s = true ∧ b ≠ sumMod256 (payloadPrefix s 6) then
      s.diagLog ++ [{ code := 0x01#8, observed := b, expected := sumMod256 (payloadPrefix s 6) }]
    else s.diagLog := by
  rcases rxbResult_cases b s with ⟨ht, -, -, h⟩ | ⟨ht, -, h⟩ | ⟨ht, -, -, -, h⟩ | ⟨ht, hb, h⟩ | ⟨ht, hb, h⟩ <;>
    rw [h] <;> simp [*]

end RxbParts

/-! ### What MIX leaves in each part of the state (41_mixer.md R130) -/

/-- The outputs that a MIX leaves, as a function of the sample and the outputs before it. -/
def mixOutputs (q : Snapshot) (o : Outputs) : Outputs :=
  if q.valid = true then
    { dirA := dirOf (speedFinal .a q.x q.y), dutyA := magOf (speedFinal .a q.x q.y)
      dirB := dirOf (speedFinal .b q.x q.y), dutyB := magOf (speedFinal .b q.x q.y) }
  else o

@[simp] theorem mixResult_outputs (s : State) : (mixResult s).outputs = mixOutputs (readSample s) s.outputs := by
  by_cases hv : s.sampleValid = true
  · rw [mixResult_of_valid hv, mixOutputs, if_pos (show (readSample s).valid = true from hv)]
    rfl
  · rw [mixResult_of_invalid (by simpa using hv), mixOutputs, if_neg (show ¬ (readSample s).valid = true from hv)]
    rfl

/-- MIX writes the outputs and the history and nothing else. -/
theorem mixResult_frame (s : State) : mixResult s = { s with
    dirA := (mixResult s).dirA, dutyA := (mixResult s).dutyA, dirB := (mixResult s).dirB
    dutyB := (mixResult s).dutyB, history := (mixResult s).history } := by
  by_cases hv : s.sampleValid = true
  · rw [mixResult_of_valid hv]
  · rw [mixResult_of_invalid (by simpa using hv)]

@[simp] theorem mixResult_prevByte (s : State) : (mixResult s).prevByte = s.prevByte := by rw [mixResult_frame]
@[simp] theorem mixResult_reading (s : State) : (mixResult s).reading = s.reading := by rw [mixResult_frame]
@[simp] theorem mixResult_position (s : State) : (mixResult s).position = s.position := by rw [mixResult_frame]
@[simp] theorem mixResult_payload (s : State) : (mixResult s).payload = s.payload := by rw [mixResult_frame]
@[simp] theorem mixResult_sample (s : State) : readSample (mixResult s) = readSample s := by rw [mixResult_frame]; rfl
@[simp] theorem mixResult_diagLog (s : State) : (mixResult s).diagLog = s.diagLog := by rw [mixResult_frame]
@[simp] theorem mixResult_pubPending (s : State) : (mixResult s).pubPending = s.pubPending := by rw [mixResult_frame]
@[simp] theorem mixResult_mixPartial (s : State) : (mixResult s).mixPartial = s.mixPartial := by rw [mixResult_frame]
@[simp] theorem mixResult_refused (s : State) : (mixResult s).refused = s.refused := by rw [mixResult_frame]

/-! ### What further events add to what a history says (10_state.md R31) -/

section Appended

variable (h es : List Event)

@[simp] theorem bytesSinceReset_append : bytesSinceReset (h ++ es) = es.foldl bytesAfter (bytesSinceReset h) :=
  List.foldl_append

@[simp] theorem sampleOf_append : sampleOf (h ++ es) = es.foldl sampleAfter (sampleOf h) := List.foldl_append

@[simp] theorem outputsOf_append : outputsOf (h ++ es) = es.foldl outputsAfter (outputsOf h) := List.foldl_append

@[simp] theorem recordsOf_append : recordsOf (h ++ es) = recordsOf h ++ recordsOf es := List.filterMap_append

@[simp] theorem acceptedOf_append : acceptedOf (h ++ es) = acceptedOf h ++ acceptedOf es := List.filterMap_append

@[simp] theorem acceptedOf_accepted (i : Instr) : acceptedOf [.accepted i] = [i] := rfl

@[simp] theorem refusedIn_append : refusedIn (h ++ es) = (refusedIn h || refusedIn es) := List.any_append

/-- An event that is no acceptance leaves the operations accepted. -/
theorem acceptedOf_snoc {h : List Event} {e : Event} (he : acceptedOf [e] = []) :
    acceptedOf (h ++ [e]) = acceptedOf h := by
  rw [acceptedOf_append, he, List.append_nil]

end Appended

/-! ### The stream since the last reset, operation by operation (20_memory.md R62) -/

@[simp] theorem rxbResult_bytes (b : Byte) (s : State) :
    bytesSinceReset (rxbResult b s).history = bytesSinceReset s.history ++ [b] := by
  rcases rxbResult_cases b s with ⟨-, -, -, h⟩ | ⟨-, -, h⟩ | ⟨-, -, -, -, h⟩ | ⟨-, -, h⟩ | ⟨-, -, h⟩ <;> rw [h] <;>
    exact bytesSinceReset_append _ _

@[simp] theorem mixResult_bytes (s : State) :
    bytesSinceReset (mixResult s).history = bytesSinceReset s.history := by
  by_cases hv : s.sampleValid = true
  · rw [mixResult_of_valid hv]
    exact bytesSinceReset_append _ _
  · rw [mixResult_of_invalid (by simpa using hv)]
    exact bytesSinceReset_append _ _

@[simp] theorem rstResult_bytes (s : State) : bytesSinceReset (rstResult s).history = [] := by
  rw [rstResult_eq]
  exact bytesSinceReset_append _ _

@[simp] theorem refuse_bytes (w : OpWord) (s : State) :
    bytesSinceReset (refuse w s).history = bytesSinceReset s.history :=
  bytesSinceReset_append _ _

/-! ### Markers in a stream (40_decoder.md R101) -/

/-- One more byte brings a marker when there was one, or when it is 0xFF after 0x00. -/
theorem hasMarker_snoc (l : List Byte) (b : Byte) :
    hasMarker (l ++ [b]) = true ↔ hasMarker l = true ∨ (l.getLast? = some 0x00#8 ∧ b = 0xFF#8) := by
  induction l with
  | nil => simp [hasMarker]
  | cons a l ih =>
    cases l with
    | nil => simp [hasMarker]
    | cons c l =>
      have hl : hasMarker (a :: (c :: l ++ [b])) = ((a == 0x00#8 && c == 0xFF#8) || hasMarker (c :: l ++ [b])) := rfl
      have hr : hasMarker (a :: c :: l) = ((a == 0x00#8 && c == 0xFF#8) || hasMarker (c :: l)) := rfl
      rw [List.cons_append, hl, hr, Bool.or_eq_true, Bool.or_eq_true, ih, List.getLast?_cons_cons, or_assoc]

/-- PREV_RESET of WMFD is not 0x00, so a 0x00 in `prev_byte` is the stream's last byte. -/
theorem getLast?_of_prev_zero {s : State} (hp : s.prevByte = (bytesSinceReset s.history).getLastD Config.wmfd.prevReset)
    (h0 : s.prevByte = 0x00#8) : (bytesSinceReset s.history).getLast? = some 0x00#8 := by
  rw [h0, List.getLastD_eq_getLast?] at hp
  cases hl : (bytesSinceReset s.history).getLast? with
  | none => rw [hl] at hp; cases hp
  | some c => rw [hl] at hp; rw [hp]; rfl

/-! ### The frame invariant I1 to I4 (10_state.md R25) -/

section FrameInvariant

variable {s t : State} {b : Byte}

/-- The frame invariant looks at the decoder's own state and the stream alone. -/
theorem State.FrameInv.of_decoder_eq (h : s.FrameInv) (hprev : t.prevByte = s.prevByte)
    (hreading : t.reading = s.reading) (hpos : t.position = s.position) (hpay : t.payload = s.payload)
    (hbytes : bytesSinceReset t.history = bytesSinceReset s.history) : t.FrameInv := by
  have hpre : ∀ k, payloadPrefix t k = payloadPrefix s k := fun k => by rw [payloadPrefix, payloadPrefix, hpay]
  constructor <;> simp only [hprev, hreading, hpos, hpay, hbytes, hpre]
  · exact h.position_le
  · exact h.reading_stream
  · exact h.prev_at_start
  · exact h.prev_in_payload
  · exact h.no_marker_inside
  · exact h.prev_is_last

/-- A state that has just met a byte and is in a frame exactly if the byte completed a marker. -/
theorem State.FrameInv.of_scan (h : s.FrameInv) (hprev : t.prevByte = b) (hreading : t.reading = marker s b)
    (hpos : t.position = if marker s b = true then 0#3 else s.position)
    (hbytes : bytesSinceReset t.history = bytesSinceReset s.history ++ [b]) : t.FrameInv := by
  have hstart : t.reading = true → t.position = 0#3 ∧ s.prevByte = 0x00#8 ∧ b = 0xFF#8 := by
    intro hr
    rw [hreading] at hr
    rw [if_pos hr] at hpos
    exact ⟨hpos, marker_eq_true.mp hr⟩
  constructor
  case position_le =>
    rw [hpos]
    split
    · decide
    · exact h.position_le
  case reading_stream =>
    intro hr
    obtain ⟨hp0, hs0, rfl⟩ := hstart hr
    obtain ⟨pre, hpre⟩ := List.getLast?_eq_some_iff.mp (getLast?_of_prev_zero h.prev_is_last hs0)
    refine ⟨pre, ?_⟩
    rw [hbytes, hpre, hp0]
    simp [payloadPrefix]
  case prev_at_start =>
    intro hr _
    rw [hprev, (hstart hr).2.2]
  case prev_in_payload =>
    intro hr hge
    rw [(hstart hr).1] at hge
    exact absurd hge (by decide)
  case no_marker_inside =>
    intro hr
    rw [(hstart hr).1]
    rfl
  case prev_is_last => rw [hprev, hbytes, List.getLastD_concat]

/-- The payload bytes after an append are those before it and the byte appended. -/
theorem payloadPrefix_succ_of_write {k : Nat} (hpay : t.payload = s.payload.write k b) :
    payloadPrefix t (k + 1) = payloadPrefix s k ++ [b] := by
  simp only [payloadPrefix, hpay, List.range_succ, List.map_append, List.map_cons, List.map_nil,
    Memory.read_write_same, List.append_cancel_right_eq]
  exact List.map_congr_left fun a ha => Memory.read_write_other s.payload b (ne_of_lt (List.mem_range.mp ha))

/-- In a frame, a last payload byte 0x00 is also in `prev_byte`. -/
theorem State.FrameInv.prev_of_getLast? (h : s.FrameInv) (hr : s.reading = true) {c : Byte}
    (hc : (payloadPrefix s s.position.toNat).getLast? = some c) : s.prevByte = c := by
  have hpos : 1 ≤ s.position.toNat := by
    by_contra hlt
    rw [Nat.lt_one_iff.mp (not_le.mp hlt)] at hc
    cases hc
  rw [h.prev_in_payload hr hpos]
  obtain ⟨k, hk⟩ := Nat.exists_eq_add_of_le' hpos
  rw [hk, payloadPrefix, List.range_succ, List.map_append, List.map_cons, List.map_nil,
    List.getLast?_concat, Option.some.injEq] at hc
  rw [hk, Nat.add_sub_cancel, hc]

/-- A state that has just appended a byte that completes no marker. -/
theorem State.FrameInv.of_append (h : s.FrameInv) (hr : s.reading = true) (hlt : s.position.toNat < 6)
    (hm : marker s b = false) (hprev : t.prevByte = b) (hpos : t.position = s.position + 1#3)
    (hpay : t.payload = s.payload.write s.position.toNat b)
    (hbytes : bytesSinceReset t.history = bytesSinceReset s.history ++ [b]) : t.FrameInv := by
  have hposN : t.position.toNat = s.position.toNat + 1 := by
    rw [hpos, BitVec.toNat_add, Nat.mod_eq_of_lt (by simpa using (by omega : s.position.toNat + 1 < 8))]
    rfl
  have hpre : payloadPrefix t t.position.toNat = payloadPrefix s s.position.toNat ++ [b] := by
    rw [hposN, payloadPrefix_succ_of_write hpay]
  constructor
  case position_le => omega
  case reading_stream =>
    intro _
    obtain ⟨pre, hs⟩ := h.reading_stream hr
    exact ⟨pre, by rw [hbytes, hs, hpre, List.append_assoc]⟩
  case prev_at_start =>
    intro _ h0
    rw [h0] at hposN
    exact absurd hposN (by simp)
  case prev_in_payload =>
    intro _ _
    rw [hprev, hposN, Nat.add_sub_cancel, hpay, Memory.read_write_same]
  case no_marker_inside =>
    intro _
    rw [hpre, ← Bool.not_eq_true, hasMarker_snoc]
    rintro (hin | ⟨hlast, hb⟩)
    · rw [h.no_marker_inside hr] at hin
      cases hin
    · exact marker_eq_false.mp hm ⟨h.prev_of_getLast? hr hlast, hb⟩
  case prev_is_last => rw [hprev, hbytes, List.getLastD_concat]

/-- A state just after a reset. -/
theorem State.FrameInv.of_reset (hprev : t.prevByte = Config.wmfd.prevReset) (hreading : t.reading = false)
    (hpos : t.position = 0#3) (hbytes : bytesSinceReset t.history = []) : t.FrameInv := by
  constructor <;> simp [hprev, hreading, hpos, hbytes]

theorem State.FrameInv.rxbResult (b : Byte) (h : s.FrameInv) : (rxbResult b s).FrameInv := by
  have hbytes := rxbResult_bytes b s
  rcases rxbResult_cases b s with ⟨ht, hm, hout, he⟩ | ⟨-, hm, he⟩ | ⟨-, hm, hr, hlt, he⟩ | ⟨-, -, he⟩ | ⟨-, -, he⟩ <;>
    rw [he] at hbytes ⊢
  · have hr : s.reading = false := by
      rcases hout with hr | hge
      · exact hr
      · by_contra hne
        have hr : s.reading = true := by simpa using hne
        have h6 : s.position = 6#3 := BitVec.eq_of_toNat_eq (le_antisymm h.position_le (not_lt.mp hge))
        rw [atTrailer_eq_true.mpr ⟨hr, h6⟩] at ht
        cases ht
    exact h.of_scan rfl (hr.trans hm.symm) (by simp [hm]) hbytes
  · exact h.of_scan rfl hm.symm (by simp [hm]) hbytes
  · exact h.of_append hr hlt hm rfl rfl rfl hbytes
  · exact h.of_scan rfl rfl rfl hbytes
  · exact h.of_scan rfl rfl rfl hbytes

theorem State.FrameInv.execResult (i : Instr) (h : s.FrameInv) : (execResult i s).FrameInv := by
  cases i with
  | rxb b => exact h.rxbResult b
  | mix =>
    exact h.of_decoder_eq (mixResult_prevByte s) (mixResult_reading s) (mixResult_position s) (mixResult_payload s)
      (mixResult_bytes s)
  | rst => exact .of_reset rfl rfl rfl (rstResult_bytes s)

end FrameInvariant

/-- Settles O40: an RXB scans or appends (`of_scan`, `of_append`), a MIX and a refusal leave the decoder's state and the
stream, an RST empties both. -/
theorem everyStepKeepsTheFrameInvariant : Obligations.EveryStepKeepsTheFrameInvariant :=
  step_keeps (fun _ _ h => h.of_decoder_eq rfl rfl rfl rfl rfl) (fun i _ h => h.execResult i)
    (fun w s h => h.of_decoder_eq rfl rfl rfl rfl (refuse_bytes w s))

/-! ### No frame without a marker (40_decoder.md R103, 70_reset_and_hazards.md R193) -/

section NoMarkerInvariant

variable {s t : State}

/-- The invariant looks at `prev_byte`, `reading`, the sample and the stream alone. -/
theorem State.NoMarkerInv.of_eq (h : s.NoMarkerInv) (hprev : t.prevByte = s.prevByte)
    (hreading : t.reading = s.reading) (hsample : readSample t = readSample s)
    (hbytes : bytesSinceReset t.history = bytesSinceReset s.history) : t.NoMarkerInv := by
  constructor <;> rw [hbytes]
  · rw [hreading, hsample]
    exact h.idle_without_marker
  · rw [hprev]
    exact h.prev_is_last

/-- While the stream with its new byte holds no marker, RXB only scans: the byte completes none, and no frame is read. -/
theorem State.NoMarkerInv.rxbResult (b : Byte) (h : s.NoMarkerInv) : (rxbResult b s).NoMarkerInv := by
  constructor
  case idle_without_marker =>
    intro hno
    rw [rxbResult_bytes, ← Bool.not_eq_true, hasMarker_snoc, not_or] at hno
    obtain ⟨hno, hlast⟩ := hno
    obtain ⟨hr, hq⟩ := h.idle_without_marker (by simpa using hno)
    have hm : marker s b = false :=
      marker_eq_false.mpr fun ⟨h0, hb⟩ => hlast ⟨getLast?_of_prev_zero h.prev_is_last h0, hb⟩
    have ht : atTrailer s = false := by simp [atTrailer, hr]
    refine ⟨?_, by rw [rxbResult_sample, if_neg (by simp [ht]), hq]⟩
    rcases rxbResult_cases b s with ⟨-, -, -, he⟩ | ⟨-, hm', -⟩ | ⟨-, -, hr', -⟩ | ⟨ht', -⟩ | ⟨ht', -⟩
    · rw [he]
      exact hr
    · rw [hm] at hm'; cases hm'
    · rw [hr] at hr'; cases hr'
    · rw [ht] at ht'; cases ht'
    · rw [ht] at ht'; cases ht'
  case prev_is_last => rw [rxbResult_bytes, List.getLastD_concat, rxbResult_prevByte]

theorem State.NoMarkerInv.execResult (i : Instr) (h : s.NoMarkerInv) : (execResult i s).NoMarkerInv := by
  cases i with
  | rxb b => exact h.rxbResult b
  | mix => exact h.of_eq (mixResult_prevByte s) (mixResult_reading s) (mixResult_sample s) (mixResult_bytes s)
  | rst => exact ⟨fun _ => ⟨rfl, rfl⟩, by rw [Machine.execResult, rstResult_bytes]; rfl⟩

end NoMarkerInvariant

/-- Settles O41: an RXB whose stream still holds no marker changes `prev_byte` alone; nothing else reads a byte or writes
the sample, but for RST, which empties the stream. -/
theorem everyStepKeepsNoFrameWithoutMarker : Obligations.EveryStepKeepsNoFrameWithoutMarker :=
  step_keeps (fun _ _ h => h.of_eq rfl rfl rfl rfl) (fun i _ h => h.execResult i)
    (fun w s h => h.of_eq rfl rfl rfl (refuse_bytes w s))

/-! ### The history explains the state (20_memory.md R58, 10_state.md R28, R30, R38) -/

section HistoryInvariant

variable {s t : State}

/-- The invariant is kept when the events added say what changed. -/
theorem State.HistoryInv.of_events (h : s.HistoryInv) {es : List Event} (hh : t.history = s.history ++ es)
    (hq : readSample t = es.foldl sampleAfter (readSample s)) (ho : t.outputs = es.foldl outputsAfter s.outputs)
    (hd : t.diagLog = s.diagLog ++ recordsOf es) (hf : t.refused = (s.refused || refusedIn es)) : t.HistoryInv := by
  constructor <;> rw [hh]
  · rw [hq, h.sample_eq, sampleOf_append]
  · rw [ho, h.outputs_eq, outputsOf_append]
  · rw [hd, h.records_eq, recordsOf_append]
  · rw [hf, h.refused_eq, refusedIn_append]

theorem State.HistoryInv.rxbResult (b : Byte) (h : s.HistoryInv) : (rxbResult b s).HistoryInv := by
  rcases rxbResult_cases b s with ⟨-, -, -, he⟩ | ⟨-, -, he⟩ | ⟨-, -, -, -, he⟩ | ⟨-, -, he⟩ | ⟨-, -, he⟩ <;> rw [he]
  · exact h.of_events rfl rfl rfl (List.append_nil _).symm (Bool.or_false _).symm
  · exact h.of_events rfl rfl rfl (List.append_nil _).symm (Bool.or_false _).symm
  · exact h.of_events rfl rfl rfl (List.append_nil _).symm (Bool.or_false _).symm
  · exact h.of_events rfl rfl rfl (List.append_nil _).symm (Bool.or_false _).symm
  · exact h.of_events rfl rfl rfl rfl (Bool.or_false _).symm

theorem State.HistoryInv.execResult (i : Instr) (h : s.HistoryInv) : (execResult i s).HistoryInv := by
  cases i with
  | rxb b => exact h.rxbResult b
  | mix =>
    show (mixResult s).HistoryInv
    by_cases hv : s.sampleValid = true
    · rw [mixResult_of_valid hv]
      exact h.of_events rfl rfl rfl (List.append_nil _).symm (Bool.or_false _).symm
    · rw [mixResult_of_invalid (by simpa using hv)]
      exact h.of_events rfl rfl rfl (List.append_nil _).symm (Bool.or_false _).symm
  | rst =>
    show (rstResult s).HistoryInv
    rw [rstResult_eq]
    exact h.of_events rfl rfl rfl (List.append_nil _).symm (Bool.or_false _).symm

end HistoryInvariant

/-- Settles O42: the events that each operation and each refusal add say what it changes (`of_events`). -/
theorem everyStepKeepsTheHistoryTrue : Obligations.EveryStepKeepsTheHistoryTrue :=
  step_keeps (fun _ _ h => ⟨h.sample_eq, h.outputs_eq, h.records_eq, h.refused_eq⟩) (fun i _ h => h.execResult i)
    (fun w s h => h.of_events (t := refuse w s) rfl rfl rfl (List.append_nil _).symm (Bool.or_true _).symm)

/-! ### Bookkeeping: `diag_log`, the history and the mark (10_state.md R30, R31, R38) -/

/-- The state with other bookkeeping. -/
def State.withBookkeeping (s : State) (d : List DiagRecord) (h : List Event) (r : Bool) : State :=
  { s with diagLog := d, history := h, refused := r }

section Bookkeeping

variable (b : Byte) (s : State)

theorem rxbMiddle_withBookkeeping : ∃ ds es, ∀ d h r,
    rxbMiddle b (s.withBookkeeping d h r) = (rxbMiddle b s).withBookkeeping (d ++ ds) (h ++ es) r := by
  by_cases ht : atTrailer s = true
  · by_cases hb : b = sumMod256 (payloadPrefix s 6)
    · refine ⟨[], [.published (some (s.payload.read 0)) (some (s.payload.read 1)) true], fun d h r => ?_⟩
      rw [rxbMiddle_pass ht hb, rxbMiddle_pass (s := s.withBookkeeping d h r) ht hb, List.append_nil]
      rfl
    · refine ⟨[{ code := checksumMismatch, observed := b, expected := sumMod256 (payloadPrefix s 6) }],
        [.published none none false,
          .diagnosed { code := checksumMismatch, observed := b, expected := sumMod256 (payloadPrefix s 6) }],
        fun d h r => ?_⟩
      rw [rxbMiddle_fail ht hb, rxbMiddle_fail (s := s.withBookkeeping d h r) ht hb, List.append_cons h]
      rfl
  · refine ⟨[], [], fun d h r => ?_⟩
    rw [List.append_nil, List.append_nil]
    by_cases ha : s.reading = true ∧ s.position.toNat < 6 ∧ marker s b = false
    · rw [rxbMiddle_append ht ha, rxbMiddle_append (s := s.withBookkeeping d h r) ht ha]
      rfl
    · rw [rxbMiddle_none ht ha, rxbMiddle_none (s := s.withBookkeeping d h r) ht ha]

theorem rxbResult_withBookkeeping : ∃ ds es, ∀ d h r,
    rxbResult b (s.withBookkeeping d h r) = (rxbResult b s).withBookkeeping (d ++ ds) (h ++ es) r := by
  obtain ⟨ds, es, hm⟩ := rxbMiddle_withBookkeeping b (s.record (.accepted (.rxb b)))
  refine ⟨ds, .accepted (.rxb b) :: es, fun d h r => ?_⟩
  have hrec : rxbResult b (s.withBookkeeping d h r) = finishByte (marker s b) b
      (rxbMiddle b ((s.record (.accepted (.rxb b))).withBookkeeping d (h ++ [.accepted (.rxb b)]) r)) := rfl
  rw [hrec, hm, List.append_assoc, List.singleton_append, rxbResult]
  cases marker s b <;> rfl

theorem mixResult_withBookkeeping : ∃ es, ∀ d h r,
    mixResult (s.withBookkeeping d h r) = (mixResult s).withBookkeeping d (h ++ es) r := by
  by_cases hv : s.sampleValid = true
  · refine ⟨[.accepted .mix, .snapshot s.sampleX s.sampleY true,
      .drove .a (dirOf (speedFinal .a s.sampleX s.sampleY)) (magOf (speedFinal .a s.sampleX s.sampleY)),
      .drove .b (dirOf (speedFinal .b s.sampleX s.sampleY)) (magOf (speedFinal .b s.sampleX s.sampleY))],
      fun d h r => ?_⟩
    rw [mixResult_of_valid hv, mixResult_of_valid (s := s.withBookkeeping d h r) hv]
    rfl
  · have hv' : s.sampleValid = false := by simpa using hv
    refine ⟨[.accepted .mix, .snapshot s.sampleX s.sampleY false], fun d h r => ?_⟩
    rw [mixResult_of_invalid hv', mixResult_of_invalid (s := s.withBookkeeping d h r) hv']
    rfl

/-- An operation appends the same records and events to any bookkeeping, and does the same to everything else. -/
theorem execResult_withBookkeeping (i : Instr) : ∃ ds es, ∀ d h r,
    execResult i (s.withBookkeeping d h r) = (execResult i s).withBookkeeping (d ++ ds) (h ++ es) r := by
  cases i with
  | rxb b => exact rxbResult_withBookkeeping b s
  | mix =>
    obtain ⟨es, hm⟩ := mixResult_withBookkeeping s
    exact ⟨[], es, fun d h r => by rw [List.append_nil]; exact hm d h r⟩
  | rst =>
    refine ⟨[], [.accepted .rst, .published (some 0x00#8) (some 0x00#8) false], fun d h r => ?_⟩
    rw [List.append_nil, execResult, execResult, rstResult_eq, rstResult_eq]
    rfl

end Bookkeeping

/-- Settles O49 with the records and events of `execResult_withBookkeeping`; the state's own bookkeeping is one choice. -/
theorem noOperationReadsTheBookkeeping : Obligations.NoOperationReadsTheBookkeeping := by
  intro i s
  obtain ⟨ds, es, hw⟩ := execResult_withBookkeeping s i
  have hself : execResult i s
      = (execResult i s).withBookkeeping (s.diagLog ++ ds) (s.history ++ es) s.refused := hw s.diagLog s.history s.refused
  refine ⟨execResult i s, ds, es, exec_eq i s, ?_, ?_, fun d h r => ?_⟩
  · rw [hself]; rfl
  · rw [hself]; rfl
  · calc exec i (s.withBookkeeping d h r)
      _ = .next (execResult i (s.withBookkeeping d h r)) := exec_eq i _
      _ = .next ((execResult i s).withBookkeeping (d ++ ds) (h ++ es) r) := by rw [hw]

/-- An operation only appends to the history. -/
theorem execResult_history (i : Instr) (s : State) : ∃ es, (execResult i s).history = s.history ++ es := by
  obtain ⟨ds, es, hw⟩ := execResult_withBookkeeping s i
  exact ⟨es, congrArg State.history (hw s.diagLog s.history s.refused)⟩

/-! ### A passing publish ends a whole frame (40_decoder.md R107, R116) -/

/-- The six bytes of PAY as a frame's payload. -/
def State.payloadRead (s : State) : Payload :=
  { p0 := s.payload.read 0, p1 := s.payload.read 1, p2 := s.payload.read 2
    p3 := s.payload.read 3, p4 := s.payload.read 4, p5 := s.payload.read 5 }

theorem payloadPrefix_six (s : State) : payloadPrefix s 6 = s.payloadRead.bytes := rfl

theorem sumMod256_bytes (p : Payload) : sumMod256 p.bytes = p.checksum := by
  simp [sumMod256, Payload.bytes, Payload.checksum, Nat.add_assoc]

/-- RXB publishes a passing sample only as a trailer that passes, and then the first two payload bytes. -/
theorem rxbResult_publishes {b x y : Byte} {s : State}
    (h : Event.published (some x) (some y) true ∈ (rxbResult b s).history.drop s.history.length) :
    atTrailer s = true ∧ b = sumMod256 (payloadPrefix s 6) ∧ x = s.payload.read 0 ∧ y = s.payload.read 1 := by
  rcases rxbResult_cases b s with ⟨-, -, -, he⟩ | ⟨-, -, he⟩ | ⟨-, -, -, -, he⟩ | ⟨ht, hb, he⟩ | ⟨-, -, he⟩ <;>
    rw [he, List.drop_left] at h
  · simp at h
  · simp at h
  · simp at h
  · have hxy : x = s.payload.read 0 ∧ y = s.payload.read 1 := by simpa using h
    exact ⟨ht, hb, hxy⟩
  · simp at h

/-- Settles O22: the byte is a passing trailer (`rxbResult_publishes`), and in a frame at position 6 the frame invariant
has the marker and the six payload bytes at the stream's end. -/
theorem passingPublishNeedsAWholeFrame : Obligations.PassingPublishNeedsAWholeFrame := by
  intro s t b x y hs ht hpub
  have he : rxbResult b s = t := by simpa [exec_eq, execResult] using ht
  subst he
  obtain ⟨htr, hb, hx, hy⟩ := rxbResult_publishes hpub
  obtain ⟨hr, hp⟩ := atTrailer_eq_true.mp htr
  have h6 : s.position.toNat = 6 := by rw [hp]; rfl
  obtain ⟨pre, hstream⟩ := hs.reading_stream hr
  have hno := hs.no_marker_inside hr
  rw [h6, payloadPrefix_six] at hstream hno
  rw [payloadPrefix_six, sumMod256_bytes] at hb
  exact ⟨pre, s.payloadRead, by simp [hstream, frameBytes], hno, hb, hx, hy⟩

/-! ### Two MIX with no publish between them (41_mixer.md R141) -/

/-- Operations always complete, and leave what one after the other leaves. -/
theorem execAll_eq (is : List Instr) (s : State) :
    execAll is s = .next (is.foldl (fun u i => execResult i u) s) := by
  induction is generalizing s with
  | nil => rfl
  | cons i is ih => rw [execAll_cons, ih, List.foldl_cons]

/-- Events that write no sample as a group. -/
def PublishFree (es : List Event) : Prop := ∀ x y valid, Event.published x y valid ∉ es

theorem publishFree_append {es fs : List Event} : PublishFree (es ++ fs) ↔ PublishFree es ∧ PublishFree fs := by
  simp only [PublishFree, List.mem_append, not_or, forall_and]

/-- The outputs that a MIX would leave now. -/
def State.mixNow (s : State) : Outputs := mixOutputs (readSample s) s.outputs

theorem mixResult_outputs_eq_mixNow (s : State) : (mixResult s).outputs = s.mixNow := mixResult_outputs s

theorem mixOutputs_mixOutputs (q : Snapshot) (o : Outputs) : mixOutputs q (mixOutputs q o) = mixOutputs q o := by
  unfold mixOutputs
  split <;> rfl

theorem mixNow_mixResult (s : State) : (mixResult s).mixNow = s.mixNow := by
  rw [State.mixNow, mixResult_sample, mixResult_outputs, mixOutputs_mixOutputs, State.mixNow]

theorem rxbResult_sample_of_publishFree {b : Byte} {s : State} {es : List Event}
    (hh : (rxbResult b s).history = s.history ++ es) (hno : PublishFree es) :
    readSample (rxbResult b s) = readSample s := by
  rcases rxbResult_cases b s with ⟨-, -, -, he⟩ | ⟨-, -, he⟩ | ⟨-, -, -, -, he⟩ | ⟨-, -, he⟩ | ⟨-, -, he⟩ <;>
    rw [he] at hh ⊢
  · rfl
  · rfl
  · rfl
  · rw [← List.append_cancel_left hh] at hno
    exact (hno _ _ _ (.tail _ (.head _))).elim
  · rw [← List.append_cancel_left hh] at hno
    exact (hno _ _ _ (.tail _ (.head _))).elim

/-- An operation that publishes nothing does not change what a MIX would leave. -/
theorem mixNow_execResult {i : Instr} {s : State} {es : List Event}
    (hh : (execResult i s).history = s.history ++ es) (hno : PublishFree es) : (execResult i s).mixNow = s.mixNow := by
  cases i with
  | rxb b =>
    show (rxbResult b s).mixNow = s.mixNow
    rw [State.mixNow, rxbResult_outputs, rxbResult_sample_of_publishFree hh hno, State.mixNow]
  | mix => exact mixNow_mixResult s
  | rst =>
    rw [execResult, rstResult_eq] at hh
    rw [← List.append_cancel_left hh] at hno
    exact (hno _ _ _ (.tail _ (.head _))).elim

/-- Operations that publish nothing only append to the history and do not change what a MIX would leave. -/
theorem mixNow_execAll {is : List Instr} {s v : State} (hrun : execAll is s = .next v) :
    ∃ es, v.history = s.history ++ es ∧ (PublishFree es → v.mixNow = s.mixNow) := by
  induction is generalizing s with
  | nil =>
    obtain rfl : s = v := by simpa [execAll] using hrun
    exact ⟨[], (List.append_nil _).symm, fun _ => rfl⟩
  | cons i is ih =>
    rw [execAll_cons] at hrun
    obtain ⟨es, hes⟩ := execResult_history i s
    obtain ⟨fs, hfs, hmix⟩ := ih hrun
    refine ⟨es ++ fs, by rw [hfs, hes, List.append_assoc], fun hno => ?_⟩
    obtain ⟨hnoes, hnofs⟩ := publishFree_append.mp hno
    rw [hmix hnofs, mixNow_execResult hes hnoes]

/-- Settles O34: MIX writes the outputs and the history (`mixResult_frame`); what a second MIX would leave is kept by every
operation that publishes nothing, and right after the first MIX it is what that one left. -/
theorem mixStaysInsideTheMixer : Obligations.MixStaysInsideTheMixer := by
  intro s is
  have hrun := execAll_eq is (mixResult s)
  obtain ⟨es, hes, hmix⟩ := mixNow_execAll hrun
  refine ⟨mixResult s, _, _, execMix_eq s, hrun, execMix_eq _, mixResult_frame s, fun hno => ?_⟩
  rw [hes, List.drop_left] at hno
  rw [mixResult_outputs_eq_mixNow, hmix hno, mixNow_mixResult, mixResult_outputs_eq_mixNow]

/-! ### Duties, and nothing in flight (10_state.md R28, R37) -/

theorem magOf_le (sp : Int) : (magOf sp).toNat ≤ Config.dutyMax := by
  rw [magOf_toNat]
  exact Nat.min_le_left _ _

/-- The duty range looks at the outputs alone. -/
theorem State.dutiesInRange.of_outputs_eq {s t : State} (h : s.dutiesInRange) (ho : t.outputs = s.outputs) :
    t.dutiesInRange := by
  obtain ⟨ha, hb⟩ := h
  exact ⟨(congrArg (fun o => o.dutyA.toNat) ho).trans_le ha, (congrArg (fun o => o.dutyB.toNat) ho).trans_le hb⟩

theorem State.dutiesInRange.execResult {s : State} (i : Instr) (h : s.dutiesInRange) :
    (execResult i s).dutiesInRange := by
  cases i with
  | rxb b => exact h.of_outputs_eq (rxbResult_outputs b s)
  | mix =>
    show (mixResult s).dutiesInRange
    by_cases hv : s.sampleValid = true
    · rw [mixResult_of_valid hv]
      exact ⟨magOf_le _, magOf_le _⟩
    · rw [mixResult_of_invalid (by simpa using hv)]
      exact h
  | rst => exact ⟨Nat.zero_le _, Nat.zero_le _⟩

/-- Settles O43: MIX drives clamped magnitudes (`magOf_le`), RST zeros, and nothing else writes a duty. -/
theorem everyStepKeepsDutiesInRange : Obligations.EveryStepKeepsDutiesInRange :=
  step_keeps (fun _ _ h => h) (fun i _ h => h.execResult i) (fun _ _ h => h)

theorem State.nothingInFlight.execResult {s : State} (i : Instr) (h : s.nothingInFlight) :
    (execResult i s).nothingInFlight := by
  obtain ⟨hp, hq⟩ := h
  cases i with
  | rxb b => exact ⟨(rxbResult_pubPending b s).trans hp, (rxbResult_mixPartial b s).trans hq⟩
  | mix => exact ⟨(mixResult_pubPending s).trans hp, (mixResult_mixPartial s).trans hq⟩
  | rst => exact ⟨rfl, rfl⟩

/-- Settles O44: with ATOMIC_PUBLISH only RST writes what is in flight, and empties it. -/
theorem everyStepKeepsNothingInFlight : Obligations.EveryStepKeepsNothingInFlight :=
  step_keeps (fun _ _ h => h) (fun i _ h => h.execResult i) (fun _ _ h => h)

/-! ### Who writes the mark, the records, the sample and the outputs -/

theorem execResult_refused (i : Instr) (s : State) : (execResult i s).refused = s.refused := by
  cases i with
  | rxb b => exact rxbResult_refused b s
  | mix => exact mixResult_refused s
  | rst => rfl

/-- Settles O45: an operation's word is not reserved and leaves the mark; a reserved word sets it. -/
theorem refusedIsStickyAndOnlyReservedWordsSetIt : Obligations.RefusedIsStickyAndOnlyReservedWordsSetIt := by
  intro s t h
  rcases step_effect h with ⟨hin, rfl⟩ | ⟨i, ws, hin, rfl⟩ | ⟨w, ws, hin, hr, rfl⟩
  · simp [hin]
  · rw [execResult_refused]
    simp [hin, encode_not_reserved]
  · simp [hin, hr]

/-- Settles O46: a failing trailer is run as `rxbResult_diagLog` says; in every other case that lemma's test fails, or the
word taken is no RXB. -/
theorem exactlyFailingTrailersAddARecord : Obligations.ExactlyFailingTrailersAddARecord := by
  intro s t h failing
  constructor
  · rintro b e ⟨⟨ws, hin⟩, hr, hp, he, hb⟩
    obtain rfl : sumMod256 (payloadPrefix s 6) = e := by simpa [checksum_eq] using he
    rw [step_of_encode hin, Host.Outcome.next.injEq] at h
    rw [← h, execResult, rxbResult_diagLog, if_pos ⟨atTrailer_eq_true.mpr ⟨hr, hp⟩, hb⟩]
    rfl
  · intro hnone
    rcases step_effect h with ⟨-, rfl⟩ | ⟨i, ws, hin, rfl⟩ | ⟨w, ws, -, -, rfl⟩
    · rfl
    · cases i with
      | rxb b =>
        rw [execResult, rxbResult_diagLog, if_neg]
        · rfl
        · rintro ⟨ht, hb⟩
          obtain ⟨hr, hp⟩ := atTrailer_eq_true.mp ht
          exact hnone ⟨b, _, ⟨ws, hin⟩, hr, hp, checksum_eq s, hb⟩
      | mix => exact mixResult_diagLog _
      | rst => rfl
    · rfl

/-- Settles O47: MIX and refusals leave the sample, RST writes its reset value, and RXB writes it as `rxbResult_sample`
says. -/
theorem onlyTrailersAndResetWriteTheSample : Obligations.OnlyTrailersAndResetWriteTheSample := by
  intro s t h hne
  rcases step_effect h with ⟨-, rfl⟩ | ⟨i, ws, hin, rfl⟩ | ⟨w, ws, -, -, rfl⟩
  · exact absurd rfl hne
  · cases i with
    | rxb b =>
      have hq := rxbResult_sample b (s.withPort ws)
      by_cases ht : atTrailer s = true
      · rw [if_pos (show atTrailer (s.withPort ws) = true from ht)] at hq
        obtain ⟨hr, hp⟩ := atTrailer_eq_true.mp ht
        exact .inr ⟨b, _, ws, hin, hr, hp, checksum_eq s, hq⟩
      · rw [if_neg (show ¬ atTrailer (s.withPort ws) = true from ht)] at hq
        exact absurd hq hne
    | mix => exact absurd (mixResult_sample _) hne
    | rst => exact .inl ⟨ws, hin, rfl⟩
  · exact absurd rfl hne

/-- Settles O48: RXB and refusals leave the outputs, and so does a MIX on a sample that is not valid. -/
theorem onlyValidMixAndResetWriteTheOutputs : Obligations.OnlyValidMixAndResetWriteTheOutputs := by
  intro s t h hne
  rcases step_effect h with ⟨-, rfl⟩ | ⟨i, ws, hin, rfl⟩ | ⟨w, ws, -, -, rfl⟩
  · exact absurd rfl hne
  · cases i with
    | rxb b => exact absurd (rxbResult_outputs b _) hne
    | mix =>
      refine .inr ⟨ws, hin, ?_⟩
      by_contra hv
      have hv' : ¬ (readSample s).valid = true := hv
      apply hne
      rw [execResult, mixResult_outputs, mixOutputs, readSample_withPort, if_neg hv', State.withPort_outputs]
    | rst => exact .inl ⟨ws, hin, rfl⟩
  · exact absurd rfl hne

/-! ### After reset (70_reset_and_hazards.md R190) -/

/-- Settles O38: the stream and the history are empty, nothing is read, and every element has its reset value. -/
theorem resetMeetsTheInvariants : Obligations.ResetMeetsTheInvariants :=
  ⟨reset_payload_wf, .of_reset rfl rfl rfl rfl, ⟨rfl, rfl, rfl, rfl⟩, ⟨fun _ => ⟨rfl, rfl⟩, rfl⟩, ⟨rfl, rfl⟩,
    ⟨Nat.zero_le _, Nat.zero_le _⟩⟩

/-! ### A torn snapshot (20_memory.md R59, 95_test_vectors.md H-1) -/

/-- The schedule of H-1: the first frame is decoded and its three writes performed; the second frame's trailer leaves three
writes pending; the mixer reads x, the decoder performs the writes of x and y, and the mixer reads y and valid and drives. -/
def tornMoves : List Move :=
  List.replicate 21 .decoder
    ++ [.mixer .x, .decoder, .decoder, .mixer .y, .mixer .valid, .mixer .x, .decoder]

/-- The words of H-1: two frames with correct checksums, then a MIX. -/
def tornWords : List OpWord :=
  (feed ([0x00#8, 0xFF#8, 0x0A#8, 0x14#8, 0x1E#8, 0x28#8, 0x32#8, 0x3C#8, 0xD2#8]
    ++ [0x00#8, 0xFF#8, 0x1E#8, 0x28#8, 0x00#8, 0x00#8, 0x00#8, 0x00#8, 0x46#8]) ++ [Instr.mix]).map encode

/-- The run of H-1 from reset. -/
def tornRun : Option State := completedRun relaxedParams tornMoves (State.reset.withPort tornWords)

theorem tornRun_completes : tornRun.isSome = true := by decide

/-- Settles O55 with the run `tornRun`: x is 0x0A of the first frame, y is 0x28 of the second. -/
theorem relaxedModeAdmitsATornSnapshot : Obligations.RelaxedModeAdmitsATornSnapshot :=
  ⟨tornWords, tornMoves, tornRun.get tornRun_completes, by decide, (Option.some_get tornRun_completes).symm,
    by decide, by decide⟩

/-! ### What is at the port, and which moves are enabled (20_memory.md R59) -/

section Port

variable {s : State}

theorem portDecoded_eq_head? (s : State) : portDecoded s = s.input.head?.map decode := by
  cases hin : s.input <;> simp only [portDecoded, fetch, hin, List.head?_nil, List.head?_cons, Option.map_none,
    Option.map_some]

theorem portDecoded_eq_ok_iff {i : Instr} : portDecoded s = some (.ok i) ↔ ∃ ws, s.input = encode i :: ws := by
  rw [portDecoded_eq_head?]
  cases s.input <;> simp [decode_eq_ok_iff]

theorem portDecoded_eq_error_iff {e : DecodeError} : portDecoded s = some (.error e) ↔
    ∃ w ws, s.input = w :: ws ∧ w.reserved = true ∧ e = .reservedWord w := by
  rw [portDecoded_eq_head?]
  cases s.input <;> simp [decode_eq_error_iff]

theorem rxbAtPort_iff : rxbAtPort s = true ↔ ∃ b ws, s.input = encode (.rxb b) :: ws := by
  simp only [← portDecoded_eq_ok_iff]
  unfold rxbAtPort
  split
  next b hd => simp [hd]
  next hd => simpa using hd

theorem mixAtPort_iff : mixAtPort s = true ↔ ∃ ws, s.input = encode .mix :: ws := by
  rw [← portDecoded_eq_ok_iff]
  unfold mixAtPort
  split
  next hd => simp [hd]
  next hd => simpa using hd

theorem hostWordAtPort_iff : hostWordAtPort s = true ↔
    (∃ ws, s.input = encode .rst :: ws) ∨ ∃ w ws, s.input = w :: ws ∧ w.reserved = true := by
  have herr : (∃ w ws, s.input = w :: ws ∧ w.reserved = true) ↔ ∃ e, portDecoded s = some (.error e) := by
    simp only [portDecoded_eq_error_iff]
    exact ⟨fun ⟨w, ws, hin, hr⟩ => ⟨_, w, ws, hin, hr, rfl⟩, fun ⟨_, w, ws, hin, hr, _⟩ => ⟨w, ws, hin, hr⟩⟩
  rw [← portDecoded_eq_ok_iff, herr]
  unfold hostWordAtPort
  split
  next hd => simp [hd]
  next e hd => simp [hd]
  next hrst herr => simpa using ⟨hrst, herr⟩

end Port

/-! ### The atomic operations for every value of the parameters -/

/-- The state that MIX leaves on a block with the parameters `p` and ATOMIC_PUBLISH = true. -/
def mixResultWith (p : Config.Params) (s : State) : State :=
  mixFrom p (readSample s)
    ((s.record (.accepted .mix)).record (.snapshot s.sampleX s.sampleY s.sampleValid))

/-- The state that RST leaves on a block with the parameters `p`. -/
def rstResultWith (p : Config.Params) (s : State) : State :=
  (resetElements p (s.record (.accepted .rst))).record (.published (some 0x00#8) (some 0x00#8) false)

/-- The state that an operation leaves on a block with the parameters `p` and ATOMIC_PUBLISH = true. -/
def execResultWith (p : Config.Params) : Instr → State → State
  | .rxb b, s => rxbResultWith p b s
  | .mix, s => mixResultWith p s
  | .rst, s => rstResultWith p s

theorem execWith_eq (p : Config.Params) (i : Instr) (s : State) : execWith p i s = .next (execResultWith p i s) := by
  cases i with
  | rxb b => exact rxbWith_eq p b s
  | mix => rfl
  | rst => rfl

theorem atomicStep_of_empty {s : State} (h : s.input = []) (p : Config.Params) : atomicStep p s = .next s := by
  simp only [atomicStep, fetch, h, idle]

theorem atomicStep_of_encode {s : State} {i : Instr} {ws : List OpWord} (h : s.input = encode i :: ws)
    (p : Config.Params) : atomicStep p s = .next (execResultWith p i (s.withPort ws)) := by
  simp only [atomicStep, fetch, h, decode_encode, execWith_eq, State.withPort]

theorem atomicStep_of_reserved {s : State} {w : OpWord} {ws : List OpWord} (h : s.input = w :: ws)
    (hr : w.reserved = true) (p : Config.Params) : atomicStep p s = .next (refuse w (s.withPort ws)) := by
  simp only [atomicStep, fetch, h, decode_of_reserved hr, reject, State.withPort]

/-! ### The mixer's gate for every value of the parameters (41_mixer.md R132) -/

section MixFrom

variable (p : Config.Params) (q : Snapshot) (s : State)

theorem mixFrom_of_valid {q : Snapshot} (h : q.valid = true) : mixFrom p q s =
    drive .b (driveDir p.speedQuant .b q.x q.y) (driveMag p.speedQuant .b q.x q.y)
      (drive .a (driveDir p.speedQuant .a q.x q.y) (driveMag p.speedQuant .a q.x q.y) s) := by
  rw [mixFrom, if_pos h]

theorem mixFrom_of_invalid {q : Snapshot} (h : ¬ q.valid = true) : mixFrom p q s = s := by
  rw [mixFrom, if_neg h]

/-- What MIX does after its snapshot writes the outputs and records drives alone. -/
theorem mixFrom_cases : mixFrom p q s = s ∨ ∃ dA uA dB uB, mixFrom p q s = drive .b dB uB (drive .a dA uA s) := by
  by_cases h : q.valid = true
  · exact .inr ⟨_, _, _, _, mixFrom_of_valid p s h⟩
  · exact .inl (mixFrom_of_invalid p s h)

@[simp] theorem mixFrom_prevByte : (mixFrom p q s).prevByte = s.prevByte := by
  rcases mixFrom_cases p q s with h | ⟨_, _, _, _, h⟩ <;> simp [h]

@[simp] theorem mixFrom_pubPending : (mixFrom p q s).pubPending = s.pubPending := by
  rcases mixFrom_cases p q s with h | ⟨_, _, _, _, h⟩ <;> simp [h]

@[simp] theorem mixFrom_mixPartial : (mixFrom p q s).mixPartial = s.mixPartial := by
  rcases mixFrom_cases p q s with h | ⟨_, _, _, _, h⟩ <;> simp [h]

@[simp] theorem mixFrom_input : (mixFrom p q s).input = s.input := by
  rcases mixFrom_cases p q s with h | ⟨_, _, _, _, h⟩ <;> simp [h]

@[simp] theorem mixFrom_bytes : bytesSinceReset (mixFrom p q s).history = bytesSinceReset s.history := by
  rcases mixFrom_cases p q s with h | ⟨_, _, _, _, h⟩ <;> simp [h, bytesAfter]

@[simp] theorem mixFrom_accepted : acceptedOf (mixFrom p q s).history = acceptedOf s.history := by
  rcases mixFrom_cases p q s with h | ⟨_, _, _, _, h⟩ <;> simp [h, acceptedOf]

end MixFrom

/-! ### RXB for every value of the parameters: what it can add and what it leaves -/

section RxbWith

variable (p : Config.Params) (b : Byte) (s : State)

/-- What RXB may do before a frame starts, of what a count of the steps to come looks at: place at most three writes. No
operation is accepted there, and the port and `mix_partial` stay. -/
structure State.PlacesWrites (s t : State) : Prop where
  pubPending_length : t.pubPending.length ≤ s.pubPending.length + 3
  accepted : acceptedOf t.history = acceptedOf s.history
  input : t.input = s.input
  mixPartial : t.mixPartial = s.mixPartial

theorem publishPass_placesWrites (x y : Byte) : s.PlacesWrites (publishPass p x y s) := by
  cases hp : p.atomicPublish <;> constructor <;> simp [publishPass, hp, acceptedOf]

theorem publishFail_placesWrites : s.PlacesWrites (publishFail p s) := by
  cases hp : p.atomicPublish <;> constructor <;> simp [publishFail, hp, acceptedOf]

theorem trailerResultWith_placesWrites : s.PlacesWrites (trailerResultWith p b s) := by
  unfold trailerResultWith
  split
  · obtain ⟨hlen, hacc, hin, hmix⟩ := publishPass_placesWrites p s (s.payload.read 0) (s.payload.read 1)
    exact ⟨hlen, hacc, hin, hmix⟩
  · obtain ⟨hlen, hacc, hin, hmix⟩ := publishFail_placesWrites p s
    refine ⟨hlen, ?_, hin, hmix⟩
    exact (acceptedOf_snoc rfl).trans hacc

theorem rxbMiddleWith_placesWrites : s.PlacesWrites (rxbMiddleWith p b s) := by
  unfold rxbMiddleWith
  split_ifs
  · exact trailerResultWith_placesWrites p b s
  · exact ⟨Nat.le_add_right _ _, rfl, rfl, rfl⟩
  · exact ⟨Nat.le_add_right _ _, rfl, rfl, rfl⟩

@[simp] theorem finishByte_pubPending (start : Bool) : (finishByte start b s).pubPending = s.pubPending := by
  cases start <;> rfl
@[simp] theorem finishByte_history (start : Bool) : (finishByte start b s).history = s.history := by
  cases start <;> rfl
@[simp] theorem finishByte_input (start : Bool) : (finishByte start b s).input = s.input := by
  cases start <;> rfl
@[simp] theorem finishByte_mixPartial (start : Bool) : (finishByte start b s).mixPartial = s.mixPartial := by
  cases start <;> rfl

theorem rxbResultWith_pubPending_length : (rxbResultWith p b s).pubPending.length ≤ s.pubPending.length + 3 := by
  rw [rxbResultWith, finishByte_pubPending]
  exact (rxbMiddleWith_placesWrites p b _).pubPending_length

@[simp] theorem rxbResultWith_accepted :
    acceptedOf (rxbResultWith p b s).history = acceptedOf s.history ++ [.rxb b] := by
  rw [rxbResultWith, finishByte_history, (rxbMiddleWith_placesWrites p b _).accepted, record_history,
    acceptedOf_append, acceptedOf_accepted]

@[simp] theorem rxbResultWith_input : (rxbResultWith p b s).input = s.input := by
  rw [rxbResultWith, finishByte_input, (rxbMiddleWith_placesWrites p b _).input, record_input]

@[simp] theorem rxbResultWith_mixPartial : (rxbResultWith p b s).mixPartial = s.mixPartial := by
  rw [rxbResultWith, finishByte_mixPartial, (rxbMiddleWith_placesWrites p b _).mixPartial, record_mixPartial]

end RxbWith

/-! ### The moves of the relaxed mode, case by case -/

/-- What a move of the relaxed mode can do: nothing when its agent has no step, else one of the sub-steps of 20_memory.md
R59, or the host's. -/
inductive RelaxedMove (p : Config.Params) : Move → State → State → Prop where
  | idle {mv : Move} {s : State} (h : mv.enabled s = false) : RelaxedMove p mv s s
  | perform {s : State} {w : FieldWrite} {ws : List FieldWrite} (hp : s.pubPending = w :: ws) :
    RelaxedMove p .decoder s ((writeField { s with pubPending := ws } w).record (.fieldWritten w))
  | consume {s : State} {b : Byte} {ws : List OpWord} (hp : s.pubPending = []) (hin : s.input = encode (.rxb b) :: ws) :
    RelaxedMove p .decoder s (rxbResultWith p b (s.withPort ws))
  | start {s : State} {f : SampleField} {ws : List OpWord} (hq : s.mixPartial = PartialSnapshot.empty)
    (hin : s.input = encode .mix :: ws) :
    RelaxedMove p (.mixer f) s (readField ((s.withPort ws).record (.accepted .mix)) f)
  | read {s : State} {f : SampleField} (hc : s.mixPartial.complete = none) (hq : s.mixPartial ≠ PartialSnapshot.empty)
    (hf : s.mixPartial.unread f = true) : RelaxedMove p (.mixer f) s (readField s f)
  | finish {s : State} {f : SampleField} {q : Snapshot} (hc : s.mixPartial.complete = some q) :
    RelaxedMove p (.mixer f) s (mixerFinish p q s)
  | takeRst {s : State} {ws : List OpWord} (hin : s.input = encode .rst :: ws) :
    RelaxedMove p .host s (rstResultWith p (s.withPort ws))
  | takeReserved {s : State} {w : OpWord} {ws : List OpWord} (hin : s.input = w :: ws) (hr : w.reserved = true) :
    RelaxedMove p .host s (refuse w (s.withPort ws))

theorem complete_empty : PartialSnapshot.empty.complete = none := rfl

/-- Each case is what the relaxed step answers. -/
theorem RelaxedMove.relaxedStep_eq {p : Config.Params} {mv : Move} {s t : State} (h : RelaxedMove p mv s t) :
    relaxedStep p mv s = .next t := by
  cases h with
  | idle h => exact relaxedStep_of_disabled h p
  | perform hp => simp only [relaxedStep, decoderMove, hp]
  | consume hp hin => simp only [relaxedStep, decoderMove, hp, fetch, hin, decode_encode, rxbWith_eq, State.withPort]
  | start hq hin =>
    simp only [relaxedStep, mixerMove, hq, complete_empty, if_true, mixerStart, fetch, hin, decode_encode, State.withPort]
  | read hc hq hf => simp only [relaxedStep, mixerMove, hc, if_neg hq, if_pos hf]
  | finish hc => simp only [relaxedStep, mixerMove, hc]
  | takeRst hin =>
    simp only [relaxedStep, hostMove, fetch, hin, decode_encode, rstWith, rstResultWith, State.withPort]
  | takeReserved hin hr =>
    simp only [relaxedStep, hostMove, fetch, hin, decode_of_reserved hr, reject, State.withPort]

/-- The cases leave nothing out. -/
theorem RelaxedMove.exists (p : Config.Params) (mv : Move) (s : State) : ∃ t, RelaxedMove p mv s t := by
  by_cases hen : mv.enabled s = true
  case neg => exact ⟨s, .idle (by simpa using hen)⟩
  cases mv with
  | host =>
    rcases hostWordAtPort_iff.mp hen with ⟨ws, hin⟩ | ⟨w, ws, hin, hr⟩
    · exact ⟨_, .takeRst hin⟩
    · exact ⟨_, .takeReserved hin hr⟩
  | decoder =>
    cases hp : s.pubPending with
    | cons w ws => exact ⟨_, .perform hp⟩
    | nil =>
      obtain ⟨b, ws, hin⟩ := rxbAtPort_iff.mp (by simpa [Move.enabled, hp] using hen)
      exact ⟨_, .consume hp hin⟩
  | mixer f =>
    cases hc : s.mixPartial.complete with
    | some q => exact ⟨_, .finish hc⟩
    | none =>
      simp only [Move.enabled, hc] at hen
      by_cases hq : s.mixPartial = PartialSnapshot.empty
      · rw [if_pos hq] at hen
        obtain ⟨ws, hin⟩ := mixAtPort_iff.mp hen
        exact ⟨_, .start hq hin⟩
      · rw [if_neg hq] at hen
        exact ⟨_, .read hc hq hen⟩

/-! ### The steps that are left to a relaxed run (60_exceptions.md R174)

A word is worth four: an RXB may place three writes, a MIX has three sub-steps after its first read. -/

/-- The fields that a MIX has not read. -/
def PartialSnapshot.unreadCount (q : PartialSnapshot) : Nat :=
  (q.unread .x).toNat + (q.unread .y).toNat + (q.unread .valid).toNat

/-- The sub-steps that a MIX in progress has left: its reads and the drive. -/
def PartialSnapshot.stepsLeft (q : PartialSnapshot) : Nat :=
  if q = PartialSnapshot.empty then 0 else q.unreadCount + 1

/-- A bound on the enabled moves to come. -/
def State.movesLeft (s : State) : Nat := 4 * s.input.length + s.pubPending.length + s.mixPartial.stepsLeft

section MovesLeft

variable {p : Config.Params} {mv : Move} {s t : State}

@[simp] theorem readField_input (s : State) (f : SampleField) : (readField s f).input = s.input := by cases f <;> rfl
@[simp] theorem readField_pubPending (s : State) (f : SampleField) : (readField s f).pubPending = s.pubPending := by
  cases f <;> rfl
@[simp] theorem readField_history (s : State) (f : SampleField) : (readField s f).history = s.history := by
  cases f <;> rfl

/-- A read takes one field off those unread, and a MIX that has read is in progress. -/
theorem stepsLeft_readField {f : SampleField} (h : s.mixPartial.unread f = true) :
    (readField s f).mixPartial.stepsLeft = s.mixPartial.unreadCount := by
  have hne : (readField s f).mixPartial ≠ PartialSnapshot.empty := by
    cases f <;> simp [readField, PartialSnapshot.empty]
  have hone : (readField s f).mixPartial.unreadCount + 1 = s.mixPartial.unreadCount := by
    simp only [PartialSnapshot.unreadCount]
    cases f <;> rw [h] <;> simp only [readField, PartialSnapshot.unread, Option.isNone_some, Bool.toNat_true,
      Bool.toNat_false] <;> omega
  rw [PartialSnapshot.stepsLeft, if_neg hne, hone]

theorem stepsLeft_of_complete {q : Snapshot} (h : s.mixPartial.complete = some q) : 0 < s.mixPartial.stepsLeft := by
  have hne : s.mixPartial ≠ PartialSnapshot.empty := fun he => by rw [he] at h; cases h
  rw [PartialSnapshot.stepsLeft, if_neg hne]
  exact Nat.succ_pos _

theorem writeField_movesLeft (s : State) (w : FieldWrite) : (writeField s w).movesLeft = s.movesLeft := by
  cases w <;> rfl

/-- Every move does nothing or brings the run nearer to its end. -/
theorem RelaxedMove.idle_or_movesLeft_lt (h : RelaxedMove p mv s t) :
    (mv.enabled s = false ∧ t = s) ∨ t.movesLeft < s.movesLeft := by
  cases h with
  | idle h => exact .inl ⟨h, rfl⟩
  | @perform s w ws hp =>
    have hw : ((writeField { s with pubPending := ws } w).record (.fieldWritten w)).movesLeft
        = ({ s with pubPending := ws } : State).movesLeft := writeField_movesLeft _ w
    right
    rw [hw]
    simp only [State.movesLeft, hp, List.length_cons]
    omega
  | @consume s b ws hp hin =>
    have hlen := rxbResultWith_pubPending_length p b (s.withPort ws)
    right
    simp only [State.movesLeft, rxbResultWith_input, rxbResultWith_mixPartial, State.withPort_input,
      State.withPort_pubPending, State.withPort_mixPartial, hin, hp, List.length_cons, List.length_nil] at hlen ⊢
    omega
  | @start s f ws hq hin =>
    have hu : ∀ g, s.mixPartial.unread g = true := fun g => by rw [hq]; cases g <;> rfl
    have hleft : (readField ((s.withPort ws).record (.accepted .mix)) f).mixPartial.stepsLeft
        = s.mixPartial.unreadCount := stepsLeft_readField (s := (s.withPort ws).record (.accepted .mix)) (hu f)
    have hcount : s.mixPartial.unreadCount = 3 := by simp [PartialSnapshot.unreadCount, hu]
    right
    simp only [State.movesLeft, readField_input, readField_pubPending, hleft, hcount, record_input,
      record_pubPending, State.withPort_input, State.withPort_pubPending, hin, List.length_cons]
    omega
  | read hc hq hf =>
    have hleft := stepsLeft_readField hf
    right
    simp only [State.movesLeft, readField_input, readField_pubPending, hleft]
    rw [PartialSnapshot.stepsLeft, if_neg hq]
    omega
  | finish hc =>
    have hpos := stepsLeft_of_complete hc
    have h0 : PartialSnapshot.empty.stepsLeft = 0 := rfl
    right
    simp only [State.movesLeft, mixerFinish, mixFrom_input, mixFrom_pubPending, mixFrom_mixPartial, record_input,
      record_pubPending, record_mixPartial, h0]
    omega
  | takeRst hin =>
    have h0 : PartialSnapshot.empty.stepsLeft = 0 := rfl
    right
    simp only [State.movesLeft, rstResultWith, record_input, record_pubPending, record_mixPartial, resetElements_input,
      resetElements_pubPending, resetElements_mixPartial, h0, State.withPort_input, hin, List.length_cons, List.length_nil]
    omega
  | takeReserved hin hr =>
    right
    simp only [State.movesLeft, refuse_input, refuse_pubPending, refuse_mixPartial, State.withPort_input,
      State.withPort_pubPending, State.withPort_mixPartial, hin, List.length_cons]
    omega

/-- A MIX in progress has a field to read, or all three and then the drive. -/
theorem exists_mixer_enabled (h : s.mixPartial ≠ PartialSnapshot.empty) : ∃ f, (Move.mixer f).enabled s = true := by
  cases hc : s.mixPartial.complete with
  | some q => exact ⟨.x, by simp only [Move.enabled, hc]⟩
  | none =>
    have hu : ∃ f, s.mixPartial.unread f = true := by
      by_contra hall
      simp only [not_exists, Bool.not_eq_true] at hall
      have hx := hall .x
      have hy := hall .y
      have hv := hall .valid
      simp only [PartialSnapshot.unread, Option.isNone_eq_false_iff, Option.isSome_iff_exists] at hx hy hv
      obtain ⟨x, hx⟩ := hx
      obtain ⟨y, hy⟩ := hy
      obtain ⟨v, hv⟩ := hv
      simp [PartialSnapshot.complete, hx, hy, hv] at hc
    obtain ⟨f, hf⟩ := hu
    exact ⟨f, by simp only [Move.enabled, hc, if_neg h, hf]⟩

/-- While something is at the port or in flight, some agent has a step to take. -/
theorem exists_enabled (h : s.movesLeft ≠ 0) : ∃ mv : Move, mv.enabled s = true := by
  by_cases hp : s.pubPending = []
  case neg => exact ⟨.decoder, by simp [Move.enabled, hp]⟩
  by_cases hq : s.mixPartial = PartialSnapshot.empty
  case neg =>
    obtain ⟨f, hf⟩ := exists_mixer_enabled hq
    exact ⟨.mixer f, hf⟩
  rcases port_cases s with hin | ⟨i, ws, hin⟩ | ⟨w, ws, hin, hr⟩
  · exact absurd (by simp [State.movesLeft, PartialSnapshot.stepsLeft, hp, hq, hin]) h
  · cases i with
    | rxb b => exact ⟨.decoder, by simp [Move.enabled, rxbAtPort_iff.mpr ⟨b, ws, hin⟩]⟩
    | mix => exact ⟨.mixer .x, by simp [Move.enabled, hq, complete_empty, mixAtPort_iff.mpr ⟨ws, hin⟩]⟩
    | rst => exact ⟨.host, hostWordAtPort_iff.mpr (.inl ⟨ws, hin⟩)⟩
  · exact ⟨.host, hostWordAtPort_iff.mpr (.inr ⟨w, ws, hin, hr⟩)⟩

/-- With no move left the port is empty and the run is over. -/
theorem over_of_movesLeft_eq_zero (h : s.movesLeft = 0) : s.input = [] ∧ s.runOver = true := by
  have hq : s.mixPartial = PartialSnapshot.empty := by
    by_contra hne
    rw [State.movesLeft, PartialSnapshot.stepsLeft, if_neg hne] at h
    omega
  have hp : s.pubPending = [] := List.eq_nil_of_length_eq_zero (by unfold State.movesLeft at h; omega)
  exact ⟨List.eq_nil_of_length_eq_zero (by unfold State.movesLeft at h; omega), by simp [State.runOver, hp, hq]⟩

end MovesLeft

/-! ### The words of the port are accepted in order -/

@[simp] theorem operationsOf_encode_cons (i : Instr) (ws : List OpWord) :
    operationsOf (encode i :: ws) = i :: operationsOf ws := by
  simp [operationsOf]

@[simp] theorem operationsOf_reserved_cons {w : OpWord} (h : w.reserved = true) (ws : List OpWord) :
    operationsOf (w :: ws) = operationsOf ws := by
  simp [operationsOf, decode_of_reserved h]

/-- The operations accepted, and then those that wait. -/
def State.allOperations (s : State) : List Instr := acceptedOf s.history ++ operationsOf s.input

theorem allOperations_of_accept {s t : State} {i : Instr} {ws : List OpWord} (hin : s.input = encode i :: ws)
    (ht : t.input = ws) (hh : acceptedOf t.history = acceptedOf s.history ++ [i]) :
    t.allOperations = s.allOperations := by
  rw [State.allOperations, hh, ht, State.allOperations, hin, operationsOf_encode_cons, List.append_assoc,
    List.singleton_append]

theorem allOperations_of_internal {s t : State} (ht : t.input = s.input)
    (hh : acceptedOf t.history = acceptedOf s.history) : t.allOperations = s.allOperations := by
  rw [State.allOperations, hh, ht, State.allOperations]

/-- A move accepts the operation whose word it takes, and no other. -/
theorem RelaxedMove.allOperations_eq {p : Config.Params} {mv : Move} {s t : State} (h : RelaxedMove p mv s t) :
    t.allOperations = s.allOperations := by
  cases h with
  | idle h => rfl
  | @perform s w ws hp => cases w <;> exact allOperations_of_internal rfl (acceptedOf_snoc rfl)
  | consume hp hin =>
    exact allOperations_of_accept hin (rxbResultWith_input _ _ _) (rxbResultWith_accepted _ _ _)
  | start hq hin => exact allOperations_of_accept hin (by simp) (by simp)
  | read hc hq hf => exact allOperations_of_internal (readField_input _ _) (by rw [readField_history])
  | finish hc =>
    exact allOperations_of_internal (mixFrom_input _ _ _) ((mixFrom_accepted _ _ _).trans (acceptedOf_snoc rfl))
  | takeRst hin =>
    exact allOperations_of_accept hin (by simp [rstResultWith]) ((acceptedOf_snoc rfl).trans (by simp))
  | @takeReserved s w ws hin hr =>
    have hacc : acceptedOf (refuse w (s.withPort ws)).history = acceptedOf s.history := acceptedOf_snoc rfl
    rw [State.allOperations, hacc, refuse_input, State.withPort_input, State.allOperations, hin,
      operationsOf_reserved_cons hr]

/-! ### Fair runs -/

section FairRun

variable {p : Config.Params} {σ : Schedule} {s : State}

/-- A run of the relaxed mode goes on by one move. -/
theorem outcomeAt_succ (hp : p.atomicPublish = false) {n : Nat} {t : State} (h : σ.outcomeAt p s n = .next t) :
    ∃ u, RelaxedMove p (σ n) t u ∧ σ.outcomeAt p s (n + 1) = .next u := by
  obtain ⟨u, hu⟩ := RelaxedMove.exists p (σ n) t
  refine ⟨u, hu, ?_⟩
  unfold Schedule.outcomeAt at h ⊢
  rw [List.range_succ, List.map_append, runWith_append_next h, List.map_cons, List.map_nil,
    runWith_cons_next ((stepWith_relaxed hp _ _).trans hu.relaxedStep_eq), runWith_nil]

/-- Later in a run nothing has changed, or fewer moves are left. -/
theorem outcomeAt_later (hp : p.atomicPublish = false) {n : Nat} {t : State} (h : σ.outcomeAt p s n = .next t)
    {m : Nat} (hm : n ≤ m) :
    ∃ u, σ.outcomeAt p s m = .next u ∧ (u = t ∨ u.movesLeft < t.movesLeft) := by
  induction m, hm using Nat.le_induction with
  | base => exact ⟨t, h, .inl rfl⟩
  | succ m _ ih =>
    obtain ⟨u, hu, hut⟩ := ih
    obtain ⟨v, hmove, hv⟩ := outcomeAt_succ hp hu
    refine ⟨v, hv, ?_⟩
    rcases hmove.idle_or_movesLeft_lt with ⟨-, rfl⟩ | hlt
    · exact hut
    · right
      rcases hut with rfl | hut
      · exact hlt
      · exact hlt.trans hut

/-- Fairness: a run with moves left comes to a state with fewer. An agent that has a step keeps it until some move changes
the state, and fairness gives the agent its turn. -/
theorem fair_progress (hp : p.atomicPublish = false) (hfair : σ.fair p s) {n : Nat} {t : State}
    (h : σ.outcomeAt p s n = .next t) (hleft : t.movesLeft ≠ 0) :
    ∃ m u, σ.outcomeAt p s m = .next u ∧ u.movesLeft < t.movesLeft := by
  obtain ⟨mv, hen⟩ := exists_enabled hleft
  obtain ⟨m, hm, hturn⟩ := hfair mv.agent n
  obtain ⟨u, hu, rfl | hlt⟩ := outcomeAt_later hp h hm
  · obtain ⟨-, henm⟩ := hturn u hu ⟨mv, rfl, hen⟩
    obtain ⟨v, hmove, hv⟩ := outcomeAt_succ hp hu
    rcases hmove.idle_or_movesLeft_lt with ⟨hdis, -⟩ | hlt
    · rw [henm] at hdis
      cases hdis
    · exact ⟨m + 1, v, hv, hlt⟩
  · exact ⟨m, u, hu, hlt⟩

/-- Every fair run comes to a state with no move left. -/
theorem fair_reaches_end (hp : p.atomicPublish = false) (hfair : σ.fair p s) {n : Nat} {t : State}
    (h : σ.outcomeAt p s n = .next t) : ∃ m u, σ.outcomeAt p s m = .next u ∧ u.movesLeft = 0 := by
  by_cases hleft : t.movesLeft = 0
  · exact ⟨n, t, h, hleft⟩
  · obtain ⟨m, u, hu, hlt⟩ := fair_progress hp hfair h hleft
    exact fair_reaches_end hp hfair hu
termination_by t.movesLeft

theorem outcomeAt_allOperations (hp : p.atomicPublish = false) (n : Nat) {t : State}
    (h : σ.outcomeAt p s n = .next t) : t.allOperations = s.allOperations := by
  induction n generalizing t with
  | zero =>
    obtain rfl : s = t := by simpa [Schedule.outcomeAt] using h
    rfl
  | succ n ih =>
    obtain ⟨u, hu, -⟩ := outcomeAt_later (n := 0) hp rfl (Nat.zero_le n)
    obtain ⟨v, hmove, hv⟩ := outcomeAt_succ hp hu
    rw [hv, Host.Outcome.next.injEq] at h
    rw [← h, hmove.allOperations_eq, ih hu]

end FairRun

/-- Settles O56: a fair run comes to a state with no move left (`fair_reaches_end`), where nothing is at the port or in
flight; no later state has fewer, so it stays; and every move keeps the operations accepted and those that wait. -/
theorem fairRelaxedRunsComplete : Obligations.FairRelaxedRunsComplete := by
  intro p σ s hp hfair
  obtain ⟨n, t, ht, hend⟩ := fair_reaches_end (n := 0) hp hfair rfl
  obtain ⟨hin, hover⟩ := over_of_movesLeft_eq_zero hend
  have hops := outcomeAt_allOperations hp n ht
  refine ⟨n, t, fun m hm => ?_, hin, hover, ?_, ?_⟩
  · obtain ⟨u, hu, rfl | hlt⟩ := outcomeAt_later hp ht hm
    · exact hu
    · rw [hend] at hlt
      exact absurd hlt (Nat.not_lt_zero _)
  · rw [Schedule.outcomeAt] at ht
    simp only [completedRun, ht, hover, if_true]
  · rw [State.allOperations, hin] at hops
    simpa [operationsOf, State.allOperations] using hops

/-- Whether a move is enabled depends on the port and on what is in flight alone. -/
theorem Move.enabled_congr (mv : Move) {s u : State} (hport : u.input = s.input) (hpend : u.pubPending = s.pubPending)
    (hpart : u.mixPartial = s.mixPartial) : mv.enabled u = mv.enabled s := by
  cases mv with
  | host => simp only [Move.enabled, hostWordAtPort, portDecoded_eq_head?, hport]
  | decoder => simp only [Move.enabled, rxbAtPort, portDecoded_eq_head?, hport, hpend]
  | mixer f => simp only [Move.enabled, mixAtPort, portDecoded_eq_head?, hport, hpart]

/-! ### Two blocks that differ in PREV_RESET (70_reset_and_hazards.md R193) -/

/-- The state with another `prev_byte`. -/
def State.withPrev (s : State) (v : Byte) : State := { s with prevByte := v }

/-- The parameters with another PREV_RESET. -/
def withPrevReset (p : Config.Params) (r : Byte) : Config.Params := { p with prevReset := r }

/-- Two states that agree but for `prev_byte`, and there too unless no byte came since reset and neither holds 0x00. -/
def PrevAlike (s u : State) : Prop :=
  ∃ v, u = s.withPrev v
    ∧ (v = s.prevByte ∨ (v ≠ 0x00#8 ∧ s.prevByte ≠ 0x00#8 ∧ bytesSinceReset s.history = []))

theorem PrevAlike.refl (s : State) : PrevAlike s s := ⟨s.prevByte, rfl, .inl rfl⟩

/-- An update that neither reads nor writes `prev_byte` and takes no byte keeps two states alike. -/
theorem PrevAlike.map {f g : State → State} {s u : State} (h : PrevAlike s u)
    (hcomm : ∀ v, g (s.withPrev v) = (f s).withPrev v) (hprev : (f s).prevByte = s.prevByte)
    (hbytes : bytesSinceReset (f s).history = bytesSinceReset s.history) : PrevAlike (f s) (g u) := by
  obtain ⟨v, rfl, hv⟩ := h
  refine ⟨v, hcomm v, ?_⟩
  rwa [hprev, hbytes]

theorem PrevAlike.withPort {s u : State} (h : PrevAlike s u) (ws : List OpWord) :
    PrevAlike (s.withPort ws) (u.withPort ws) :=
  h.map (f := (State.withPort · ws)) (g := (State.withPort · ws)) (fun _ => rfl) rfl rfl

/-- Alike states read the same everywhere but in `prev_byte`. -/
theorem PrevAlike.congr {α : Type} {s u : State} (h : PrevAlike s u) {f : State → α}
    (hf : ∀ v, f (s.withPrev v) = f s) : f u = f s := by
  obtain ⟨v, rfl, -⟩ := h
  exact hf v

/-- Alike states see the same markers: where `prev_byte` differs, neither holds 0x00. -/
theorem PrevAlike.marker_eq {s u : State} (h : PrevAlike s u) (b : Byte) : marker u b = marker s b := by
  obtain ⟨v, rfl, rfl | ⟨hv, hs, -⟩⟩ := h
  · rfl
  · rw [marker_eq_false.mpr fun ⟨h0, _⟩ => hv h0, marker_eq_false.mpr fun ⟨h0, _⟩ => hs h0]

section Operations

variable (p : Config.Params) (r : Byte)

theorem trailerResultWith_withPrev (b v : Byte) (s : State) :
    trailerResultWith (withPrevReset p r) b (s.withPrev v) = (trailerResultWith p b s).withPrev v := by
  have hsum : sumMod256 (payloadPrefix (s.withPrev v) 6) = sumMod256 (payloadPrefix s 6) := rfl
  unfold trailerResultWith
  rw [hsum]
  split
  · unfold publishPass
    cases hp : p.atomicPublish <;> simp [withPrevReset, hp, State.withPrev, State.record]
  · unfold publishFail
    cases hp : p.atomicPublish <;> simp [withPrevReset, hp, State.withPrev, State.record, emit]

theorem rxbMiddleWith_withPrev {b v : Byte} {s : State} (hm : marker (s.withPrev v) b = marker s b) :
    rxbMiddleWith (withPrevReset p r) b (s.withPrev v) = (rxbMiddleWith p b s).withPrev v := by
  have hdo : doValidate (withPrevReset p r) b (s.withPrev v) = doValidate p b s := by
    simp only [doValidate, hm]
    rfl
  unfold rxbMiddleWith
  rw [hdo, hm, trailerResultWith_withPrev]
  split
  · rfl
  · by_cases ha : s.reading = true ∧ s.position.toNat < 6 ∧ marker s b = false
    · have ha' : (s.withPrev v).reading = true ∧ (s.withPrev v).position.toNat < 6 ∧ marker s b = false := ha
      rw [if_pos ha, if_pos ha']
      rfl
    · have ha' : ¬ ((s.withPrev v).reading = true ∧ (s.withPrev v).position.toNat < 6 ∧ marker s b = false) := ha
      rw [if_neg ha, if_neg ha']

/-- An RXB overwrites `prev_byte`, so on alike states it leaves the same. -/
theorem rxbResultWith_of_alike {s u : State} (h : PrevAlike s u) (b : Byte) :
    rxbResultWith (withPrevReset p r) b u = rxbResultWith p b s := by
  have hmark := h.marker_eq b
  obtain ⟨v, rfl, -⟩ := h
  have hm : marker ((s.record (.accepted (.rxb b))).withPrev v) b = marker (s.record (.accepted (.rxb b))) b := hmark
  have hstart : doStart (withPrevReset p r) b ((s.record (.accepted (.rxb b))).withPrev v)
      = doStart p b (s.record (.accepted (.rxb b))) := by
    simp only [doStart, hm]
    rfl
  calc rxbResultWith (withPrevReset p r) b (s.withPrev v)
    _ = finishByte (doStart (withPrevReset p r) b ((s.record (.accepted (.rxb b))).withPrev v)) b
          (rxbMiddleWith (withPrevReset p r) b ((s.record (.accepted (.rxb b))).withPrev v)) := rfl
    _ = finishByte (doStart p b (s.record (.accepted (.rxb b)))) b
          ((rxbMiddleWith p b (s.record (.accepted (.rxb b)))).withPrev v) := by
        rw [hstart, rxbMiddleWith_withPrev p r hm]
    _ = rxbResultWith p b s := by
        rw [rxbResultWith]
        cases doStart p b (s.record (.accepted (.rxb b))) <;> rfl

theorem mixFrom_withPrev (q : Snapshot) (s : State) (v : Byte) :
    mixFrom (withPrevReset p r) q (s.withPrev v) = (mixFrom p q s).withPrev v := by
  by_cases hq : q.valid = true
  · rw [mixFrom_of_valid _ _ hq, mixFrom_of_valid _ _ hq]
    rfl
  · rw [mixFrom_of_invalid _ _ hq, mixFrom_of_invalid _ _ hq]

theorem mixResultWith_withPrev (s : State) (v : Byte) :
    mixResultWith (withPrevReset p r) (s.withPrev v) = (mixResultWith p s).withPrev v :=
  mixFrom_withPrev p r (readSample s)
    ((s.record (.accepted .mix)).record (.snapshot s.sampleX s.sampleY s.sampleValid)) v

theorem mixerFinish_withPrev (q : Snapshot) (s : State) (v : Byte) :
    mixerFinish (withPrevReset p r) q (s.withPrev v) = (mixerFinish p q s).withPrev v :=
  mixFrom_withPrev p r q (State.record { s with mixPartial := PartialSnapshot.empty } (.snapshot q.x q.y q.valid)) v

theorem writeField_record_withPrev (s : State) (w : FieldWrite) (e : Event) (v : Byte) :
    (writeField (s.withPrev v) w).record e = ((writeField s w).record e).withPrev v := by
  cases w <;> rfl

theorem readField_withPrev (s : State) (f : SampleField) (v : Byte) :
    readField (s.withPrev v) f = (readField s f).withPrev v := by
  cases f <;> rfl

theorem readField_prevByte (s : State) (f : SampleField) : (readField s f).prevByte = s.prevByte := by
  cases f <;> rfl

end Operations

section AlikeSteps

variable {p : Config.Params} {r : Byte} {s u : State}

theorem PrevAlike.rxbResultWith (h : PrevAlike s u) (b : Byte) :
    PrevAlike (rxbResultWith p b s) (rxbResultWith (withPrevReset p r) b u) := by
  rw [rxbResultWith_of_alike p r h]
  exact .refl _

theorem PrevAlike.mixFrom (h : PrevAlike s u) (q : Snapshot) :
    PrevAlike (mixFrom p q s) (mixFrom (withPrevReset p r) q u) :=
  h.map (mixFrom_withPrev p r q s) (mixFrom_prevByte p q s) (mixFrom_bytes p q s)

theorem PrevAlike.mixResultWith (h : PrevAlike s u) :
    PrevAlike (mixResultWith p s) (mixResultWith (withPrevReset p r) u) :=
  h.map (mixResultWith_withPrev p r s) (mixFrom_prevByte _ _ _)
    (by rw [Machine.mixResultWith, mixFrom_bytes, record_history, record_history]; simp [bytesAfter])

/-- An RST empties the stream and leaves PREV_RESET, which is 0x00 on neither block. -/
theorem PrevAlike.rstResultWith (hp : p.prevReset ≠ 0x00#8) (hr : r ≠ 0x00#8) (h : PrevAlike s u) :
    PrevAlike (rstResultWith p s) (rstResultWith (withPrevReset p r) u) := by
  obtain ⟨v, rfl, -⟩ := h
  exact ⟨r, rfl, .inr ⟨hr, hp, by simp [Machine.rstResultWith, bytesAfter]⟩⟩

theorem PrevAlike.refuse (h : PrevAlike s u) (w : OpWord) : PrevAlike (refuse w s) (refuse w u) :=
  h.map (fun _ => rfl) rfl (refuse_bytes w s)

theorem PrevAlike.execResultWith (hp : p.prevReset ≠ 0x00#8) (hr : r ≠ 0x00#8) (h : PrevAlike s u) (i : Instr) :
    PrevAlike (execResultWith p i s) (execResultWith (withPrevReset p r) i u) := by
  cases i with
  | rxb b => exact h.rxbResultWith b
  | mix => exact h.mixResultWith
  | rst => exact h.rstResultWith hp hr

/-- One step of the two blocks with ATOMIC_PUBLISH. -/
theorem PrevAlike.atomicStep (hp : p.prevReset ≠ 0x00#8) (hr : r ≠ 0x00#8) (h : PrevAlike s u) :
    ∃ t v, atomicStep p s = .next t ∧ atomicStep (withPrevReset p r) u = .next v ∧ PrevAlike t v := by
  have hport : u.input = s.input := h.congr fun _ => rfl
  rcases port_cases s with hin | ⟨i, ws, hin⟩ | ⟨w, ws, hin, hres⟩
  · exact ⟨s, u, atomicStep_of_empty hin p, atomicStep_of_empty (hport.trans hin) _, h⟩
  · exact ⟨_, _, atomicStep_of_encode hin p, atomicStep_of_encode (hport.trans hin) _,
      (h.withPort ws).execResultWith hp hr i⟩
  · exact ⟨_, _, atomicStep_of_reserved hin hres p, atomicStep_of_reserved (hport.trans hin) hres _,
      (h.withPort ws).refuse w⟩

/-- A move of the one block can be made on the other, and leaves alike states. -/
theorem PrevAlike.relaxedMove (hp : p.prevReset ≠ 0x00#8) (hr : r ≠ 0x00#8) (h : PrevAlike s u) {mv : Move}
    {t : State} (hmove : RelaxedMove p mv s t) : ∃ v, RelaxedMove (withPrevReset p r) mv u v ∧ PrevAlike t v := by
  have hport : u.input = s.input := h.congr fun _ => rfl
  have hpend : u.pubPending = s.pubPending := h.congr fun _ => rfl
  have hpart : u.mixPartial = s.mixPartial := h.congr fun _ => rfl
  cases hmove with
  | idle hdis =>
    exact ⟨u, .idle ((mv.enabled_congr hport hpend hpart).trans hdis), h⟩
  | @perform s w ws hw =>
    refine ⟨_, .perform (hpend.trans hw), h.map
      (f := fun s => (writeField { s with pubPending := ws } w).record (.fieldWritten w))
      (g := fun s => (writeField { s with pubPending := ws } w).record (.fieldWritten w))
      (fun v => writeField_record_withPrev { s with pubPending := ws } w _ v) ?_ ?_⟩
    · cases w <;> rfl
    · cases w <;> simp [writeField, bytesAfter]
  | consume hnone hin => exact ⟨_, .consume (hpend.trans hnone) (hport.trans hin), (h.withPort _).rxbResultWith _⟩
  | @start s f ws hq hin =>
    refine ⟨_, .start (hpart.trans hq) (hport.trans hin), (h.withPort ws).map
      (f := fun s => readField (s.record (.accepted .mix)) f) (g := fun s => readField (s.record (.accepted .mix)) f)
      (fun v => readField_withPrev ((s.withPort ws).record (.accepted .mix)) f v) (readField_prevByte _ f) ?_⟩
    simp [bytesAfter]
  | @read s f hc hq hf =>
    refine ⟨_, .read (by rw [hpart, hc]) (by rwa [hpart]) (by rwa [hpart]), h.map
      (f := (readField · f)) (g := (readField · f)) (readField_withPrev s f) (readField_prevByte s f) ?_⟩
    rw [readField_history]
  | @finish s f q hc =>
    refine ⟨_, .finish (by rw [hpart, hc]), h.map (f := mixerFinish p q) (g := mixerFinish (withPrevReset p r) q)
      (mixerFinish_withPrev p r q s) (mixFrom_prevByte _ _ _) ?_⟩
    simp [mixerFinish, bytesAfter]
  | takeRst hin => exact ⟨_, .takeRst (hport.trans hin), (h.withPort _).rstResultWith hp hr⟩
  | takeReserved hin hres => exact ⟨_, .takeReserved (hport.trans hin) hres, (h.withPort _).refuse _⟩

/-- One step of the two blocks under the same move. -/
theorem PrevAlike.stepWith (hp : p.prevReset ≠ 0x00#8) (hr : r ≠ 0x00#8) (h : PrevAlike s u) (mv : Move) :
    ∃ t v, stepWith p mv s = .next t ∧ stepWith (withPrevReset p r) mv u = .next v ∧ PrevAlike t v := by
  cases hat : p.atomicPublish with
  | true =>
    have hat' : (withPrevReset p r).atomicPublish = true := hat
    rw [stepWith_atomic hat, stepWith_atomic hat']
    exact h.atomicStep hp hr
  | false =>
    have hat' : (withPrevReset p r).atomicPublish = false := hat
    rw [stepWith_relaxed hat, stepWith_relaxed hat']
    obtain ⟨t, ht⟩ := RelaxedMove.exists p mv s
    obtain ⟨v, hv, htv⟩ := h.relaxedMove hp hr ht
    exact ⟨t, v, ht.relaxedStep_eq, hv.relaxedStep_eq, htv⟩

theorem PrevAlike.runWith (hp : p.prevReset ≠ 0x00#8) (hr : r ≠ 0x00#8) (mvs : List Move) (h : PrevAlike s u) :
    ∃ t v, runWith p mvs s = .next t ∧ runWith (withPrevReset p r) mvs u = .next v ∧ PrevAlike t v := by
  induction mvs generalizing s u with
  | nil => exact ⟨s, u, rfl, rfl, h⟩
  | cons mv mvs ih =>
    obtain ⟨t, v, ht, hv, htv⟩ := h.stepWith hp hr mv
    rw [runWith_cons_next ht, runWith_cons_next hv]
    exact ih htv

theorem PrevAlike.execAllWith (hp : p.prevReset ≠ 0x00#8) (hr : r ≠ 0x00#8) (is : List Instr) (h : PrevAlike s u) :
    ∃ t v, execAllWith p is s = .next t ∧ execAllWith (withPrevReset p r) is u = .next v ∧ PrevAlike t v := by
  induction is generalizing s u with
  | nil => exact ⟨s, u, rfl, rfl, h⟩
  | cons i is ih =>
    simp only [Machine.execAllWith, execWith_eq]
    exact ih (h.execResultWith hp hr i)

/-- Power-on leaves PREV_RESET and an empty stream, whatever waits at the port. -/
theorem prevAlike_resetWith (hp : p.prevReset ≠ 0x00#8) (hr : r ≠ 0x00#8) (ws : List OpWord) :
    PrevAlike ((State.resetWith p).withPort ws) ((State.resetWith (withPrevReset p r)).withPort ws) :=
  ⟨r, rfl, .inr ⟨hr, hp, rfl⟩⟩

/-- What alike states have in common, in the statement's words. -/
theorem PrevAlike.agree (h : PrevAlike s u) :
    u = { s with prevByte := u.prevByte } ∧ (bytesSinceReset s.history ≠ [] → u.prevByte = s.prevByte) := by
  obtain ⟨v, rfl, hv⟩ := h
  refine ⟨rfl, fun hne => ?_⟩
  rcases hv with hv | ⟨-, -, hnil⟩
  · exact hv
  · exact absurd hnil hne

end AlikeSteps

/-- Settles O25 by a simulation: power-on leaves alike states, and every operation and every move keeps them alike, since
`prev_byte` is read for a marker alone (`PrevAlike.marker_eq`) and overwritten by every RXB. -/
theorem nonzeroPrevResetValuesAreEquivalent : Obligations.NonzeroPrevResetValuesAreEquivalent := by
  intro p r hp hr q alike
  constructor
  · intro is
    obtain ⟨t, u, ht, hu, htu⟩ := (prevAlike_resetWith hp hr []).execAllWith hp hr is
    exact ⟨t, u, ht, hu, htu.agree⟩
  · intro mvs ws
    obtain ⟨t, u, ht, hu, htu⟩ := (prevAlike_resetWith hp hr ws).runWith hp hr mvs
    exact ⟨t, u, ht, hu, htu.agree⟩

end Machine

end Sys2Proof

/-! The memory of WMFD (20_memory.md): PAY and its canonical form, the words at the port, the sample handoff between decoder
and mixer in WMFD and in the relaxed mode, and what the observation port shows of it. -/

namespace Sys2Proof

namespace Machine

/-! ### Every step completes (60_exceptions.md R163) -/

/-- Settles O5. -/
theorem emptyPortLeavesTheStateAlone : Obligations.EmptyPortLeavesTheStateAlone := fun _ h => step_empty h

/-- Settles O7: each case of the word at the port (`port_cases`) has a next state. -/
theorem noStateIsTerminalOrStuck : Obligations.NoStateIsTerminalOrStuck := by
  refine ⟨fun i s => ⟨_, exec_eq i s⟩, fun s => ?_⟩
  rcases port_cases s with hin | ⟨i, ws, hin⟩ | ⟨w, ws, hin, hr⟩
  · exact ⟨_, step_empty hin⟩
  · exact ⟨_, step_of_encode hin⟩
  · exact ⟨_, step_of_reserved hin hr⟩

/-! ### The words at the port are consumed in order (20_memory.md R62) -/

theorem execResult_eq_execResultWith (i : Instr) (s : State) : execResult i s = execResultWith Config.wmfd i s :=
  Host.Outcome.next.inj <| calc
    .next (execResult i s) = exec i s := (exec_eq i s).symm
    _ = execWith Config.wmfd i s := (execWith_wmfd i s).symm
    _ = .next (execResultWith Config.wmfd i s) := execWith_eq Config.wmfd i s

theorem execResultWith_input (p : Config.Params) (i : Instr) (s : State) : (execResultWith p i s).input = s.input := by
  cases i with
  | rxb b => exact rxbResultWith_input p b s
  | mix => exact mixFrom_input p _ _
  | rst => rfl

/-- An operation records its own acceptance and no other. -/
theorem execResultWith_accepted (p : Config.Params) (i : Instr) (s : State) :
    acceptedOf (execResultWith p i s).history = acceptedOf s.history ++ [i] := by
  cases i with
  | rxb b => exact rxbResultWith_accepted p b s
  | mix =>
    rw [execResultWith, mixResultWith, mixFrom_accepted]
    exact (acceptedOf_snoc rfl).trans (acceptedOf_append _ _)
  | rst => exact (acceptedOf_snoc rfl).trans (acceptedOf_append _ _)

/-- A step takes one word, and accepts the operation that the word encodes, if it encodes one. -/
theorem step_takes_word {s : State} {w : OpWord} {ws : List OpWord} (hin : s.input = w :: ws) :
    ∃ t, step s = .next t ∧ t.input = ws ∧ t.allOperations = s.allOperations := by
  rcases w.eq_encode_or_reserved with ⟨i, rfl⟩ | hr
  · have hport : (execResult i (s.withPort ws)).input = ws := by
      rw [execResult_eq_execResultWith, execResultWith_input, State.withPort_input]
    refine ⟨_, step_of_encode hin, hport, allOperations_of_accept hin hport ?_⟩
    rw [execResult_eq_execResultWith, execResultWith_accepted, State.withPort_history]
  · exact ⟨_, step_of_reserved hin hr, rfl,
      (RelaxedMove.takeReserved (p := Config.wmfd) hin hr).allOperations_eq⟩

/-- As many steps as there are words take them all; the operations accepted and those that wait stay the same. -/
theorem runSteps_takes_words (ws : List OpWord) {s : State} (hin : s.input = ws) :
    ∃ t, runSteps ws.length s = .next t ∧ t.input = [] ∧ t.allOperations = s.allOperations := by
  induction ws generalizing s with
  | nil => exact ⟨s, rfl, hin, rfl⟩
  | cons w ws ih =>
    obtain ⟨t, hstep, ht, hops⟩ := step_takes_word hin
    obtain ⟨u, hrun, hu, hops'⟩ := ih ht
    refine ⟨u, ?_, hu, hops'.trans hops⟩
    rw [List.length_cons, runSteps, hstep]
    exact hrun

/-- Settles O8: with an empty port the operations accepted are all there are (`runSteps_takes_words`). -/
theorem portWordsAreConsumedInOrder : Obligations.PortWordsAreConsumedInOrder := by
  intro s
  obtain ⟨t, hrun, ht, hops⟩ := runSteps_takes_words s.input rfl
  rw [State.allOperations, ht, State.allOperations] at hops
  exact ⟨t, hrun, ht, (List.append_nil _).symm.trans hops⟩

/-! ### PAY (20_memory.md R50, R51) -/

theorem memRead_out_of_range (s : State) {a : Nat} (h : 6 ≤ a) : memRead s a = .error (.payOutOfRange a) :=
  if_neg (not_lt.mpr h)

theorem memWrite_out_of_range (s : State) {a : Nat} (v : Byte) (h : 6 ≤ a) :
    memWrite s a v = .error (.payOutOfRange a) :=
  if_neg (not_lt.mpr h)

/-- A read looks at its own address of PAY alone, out of range too. -/
theorem memRead_congr {s t : State} {a : Nat} (h : t.payload.read a = s.payload.read a) : memRead t a = memRead s a := by
  rw [memRead, memRead, h]

/-- Only an append writes a byte of PAY, and only in range; RST empties it. -/
theorem execResult_payload_wf (i : Instr) {s : State} (h : s.payload.wf) : (execResult i s).payload.wf := by
  cases i with
  | rxb b =>
    show (rxbResult b s).payload.wf
    rcases rxbResult_cases b s with ⟨-, -, -, he⟩ | ⟨-, -, he⟩ | ⟨-, -, -, hlt, he⟩ | ⟨-, -, he⟩ | ⟨-, -, he⟩ <;> rw [he]
    · exact h
    · exact h
    · exact Memory.write_wf b h hlt
    · exact h
    · exact h
  | mix =>
    show (mixResult s).payload.wf
    rw [mixResult_payload]
    exact h
  | rst => exact reset_payload_wf

/-- Settles O50: a write stores its byte in range (`memWrite_in_range`), where the laws of PAY say what is read after it. -/
theorem payReadsBackWhatIsWritten : Obligations.PayReadsBackWhatIsWritten := by
  intro s a v
  refine ⟨fun h => ?_, fun h => ⟨memRead_out_of_range s h, memWrite_out_of_range s v h⟩⟩
  have ha : a < 6 := Nat.lt_succ_of_le h
  refine ⟨_, memWrite_in_range s v ha, ?_, fun b hb => memRead_congr (Memory.read_write_other s.payload v hb), rfl⟩
  rw [memRead_in_range _ ha, Memory.read_write_same]

/-- Settles O39: every operation keeps the form (`execResult_payload_wf`), and a refusal leaves PAY. -/
theorem everyStepKeepsPayCanonical : Obligations.EveryStepKeepsPayCanonical :=
  step_keeps (fun _ _ h => h) (fun i _ h => execResult_payload_wf i h) (fun _ _ h => h)

/-! ### The decoder's part of the state (20_memory.md R57, 40_decoder.md R118) -/

/-- A state with a given decoder part; the rest is as after reset. -/
def DecoderView.toState (v : DecoderView) : State :=
  { State.reset with
    prevByte := v.prevByte, reading := v.reading, position := v.position, payload := v.payload
    sampleX := v.sample.x, sampleY := v.sample.y, sampleValid := v.sample.valid
    diagLog := v.diagLog, pubPending := v.pubPending }

/-- What an operation makes of the decoder's part. -/
def DecoderView.after (v : DecoderView) (i : Instr) : DecoderView := (execResult i v.toState).decoderView

section DecoderPart

variable (b : Byte) (s : State)

theorem DecoderView.toState_decoderView (v : DecoderView) : v.toState.decoderView = v := rfl

theorem rxbMiddle_decoderView : (rxbMiddle b s).decoderView = (rxbMiddle b s.decoderView.toState).decoderView := by
  by_cases ht : atTrailer s = true
  · by_cases hb : b = sumMod256 (payloadPrefix s 6)
    · rw [rxbMiddle_pass ht hb, rxbMiddle_pass (s := s.decoderView.toState) ht hb]
      rfl
    · rw [rxbMiddle_fail ht hb, rxbMiddle_fail (s := s.decoderView.toState) ht hb]
      rfl
  · by_cases ha : s.reading = true ∧ s.position.toNat < 6 ∧ marker s b = false
    · rw [rxbMiddle_append ht ha, rxbMiddle_append (s := s.decoderView.toState) ht ha]
      rfl
    · rw [rxbMiddle_none ht ha, rxbMiddle_none (s := s.decoderView.toState) ht ha]
      rfl

theorem finishByte_decoderView (start : Bool) :
    (finishByte start b s).decoderView = (finishByte start b s.decoderView.toState).decoderView := by
  cases start <;> rfl

theorem rxbResult_decoderView : (rxbResult b s).decoderView = s.decoderView.after (.rxb b) := by
  have hpart : ∀ u : State, (rxbResult b u).decoderView
      = (finishByte (marker u b) b (rxbMiddle b u.decoderView.toState).decoderView.toState).decoderView := fun u => by
    rw [rxbResult, finishByte_decoderView, rxbMiddle_decoderView]
    rfl
  calc (rxbResult b s).decoderView
    _ = (finishByte (marker s b) b (rxbMiddle b s.decoderView.toState).decoderView.toState).decoderView := hpart s
    _ = (rxbResult b s.decoderView.toState).decoderView := (hpart s.decoderView.toState).symm

theorem mixResult_decoderView : (mixResult s).decoderView = s.decoderView := by
  rw [mixResult_frame]
  rfl

theorem DecoderView.after_mix (v : DecoderView) : v.after .mix = v :=
  (mixResult_decoderView v.toState).trans v.toState_decoderView

/-- What an operation leaves in the decoder's part depends on that part alone. -/
theorem execResult_decoderView (i : Instr) : (execResult i s).decoderView = s.decoderView.after i := by
  cases i with
  | rxb b => exact rxbResult_decoderView b s
  | mix => exact (mixResult_decoderView s).trans (DecoderView.after_mix _).symm
  | rst => rfl

/-- A run on the decoder's part is the run without its MIX. -/
theorem foldl_after_filter_mix (is : List Instr) (v : DecoderView) :
    (is.filter (fun i => i ≠ .mix)).foldl DecoderView.after v = is.foldl DecoderView.after v := by
  induction is generalizing v with
  | nil => rfl
  | cons i is ih =>
    by_cases hi : i = .mix
    · rw [List.filter_cons_of_neg (by simp [hi]), ih, List.foldl_cons, hi, DecoderView.after_mix]
    · rw [List.filter_cons_of_pos (by simp [hi]), List.foldl_cons, ih, List.foldl_cons]

theorem foldl_execResult_decoderView (is : List Instr) :
    (is.foldl (fun u i => execResult i u) s).decoderView = is.foldl DecoderView.after s.decoderView :=
  (List.foldl_hom State.decoderView fun u i => (execResult_decoderView u i).symm).symm

end DecoderPart

/-- Settles O24: on the decoder's part a run is a fold of what each operation makes of that part, and MIX leaves it. -/
theorem mixStepsNeverAffectTheDecoder : Obligations.MixStepsNeverAffectTheDecoder := by
  intro is s
  refine ⟨_, _, execAll_eq is s, execAll_eq _ s, ?_⟩
  rw [foldl_execResult_decoderView, foldl_execResult_decoderView, foldl_after_filter_mix]

/-! ### The snapshot of WMFD (20_memory.md R54, R58) -/

/-- MIX records its acceptance, then its snapshot of the sample, then the drives. -/
theorem mixResult_history (s : State) : ∃ es, (mixResult s).history
    = s.history ++ .accepted .mix :: .snapshot s.sampleX s.sampleY s.sampleValid :: es := by
  by_cases hv : s.sampleValid = true
  · rw [mixResult_of_valid hv, hv]
    exact ⟨_, rfl⟩
  · rw [Bool.not_eq_true] at hv
    rw [mixResult_of_invalid hv, hv]
    exact ⟨_, rfl⟩

/-- Settles O57: the snapshot is the sample (`mixResult_history`), and the sample is what the history's publishes leave. -/
theorem wmfdSnapshotIsTheLastPublish : Obligations.WmfdSnapshotIsTheLastPublish := by
  intro s hs
  obtain ⟨es, hes⟩ := mixResult_history s
  refine ⟨mixResult s, es, execMix_eq s, ?_⟩
  rw [← hs.sample_eq]
  exact hes

/-! ### A trailer of the relaxed mode (20_memory.md R59) -/

theorem relaxedParams_atomicPublish : relaxedParams.atomicPublish = false := rfl

/-- The sample after a pending write is performed. -/
def Snapshot.write (q : Snapshot) : FieldWrite → Snapshot
  | .x v => { q with x := v }
  | .y v => { q with y := v }
  | .valid v => { q with valid := v }

/-- The writes that a trailer byte places in `pub_pending`, in their order. -/
def trailerWrites (b : Byte) (s : State) : List FieldWrite :=
  if b = sumMod256 (payloadPrefix s 6) then [.x (s.payload.read 0), .y (s.payload.read 1), .valid true]
  else [.valid false]

section RelaxedTrailer

variable {p : Config.Params} {b : Byte} {s : State}

/-- A validated trailer leaves the sample and places its writes behind those pending. -/
theorem trailerResultWith_relaxed (hp : p.atomicPublish = false) (b : Byte) (s : State) :
    readSample (trailerResultWith p b s) = readSample s
      ∧ (trailerResultWith p b s).pubPending = s.pubPending ++ trailerWrites b s := by
  unfold trailerResultWith trailerWrites
  split
  · rw [publishPass, if_neg (by simp [hp])]
    exact ⟨rfl, rfl⟩
  · rw [publishFail, if_neg (by simp [hp])]
    exact ⟨rfl, rfl⟩

theorem finishByte_readSample (start : Bool) (b : Byte) (s : State) :
    readSample (finishByte start b s) = readSample s := by
  cases start <;> rfl

/-- An RXB that is validated as a trailer writes none of the sample's fields, and places the writes. -/
theorem rxbResultWith_relaxed (hp : p.atomicPublish = false) (hv : doValidate p b s = true) :
    readSample (rxbResultWith p b s) = readSample s
      ∧ (rxbResultWith p b s).pubPending = s.pubPending ++ trailerWrites b s := by
  have hmid : rxbMiddleWith p b (s.record (.accepted (.rxb b))) = trailerResultWith p b (s.record (.accepted (.rxb b))) :=
    if_pos hv
  rw [rxbResultWith, finishByte_readSample, finishByte_pubPending, hmid]
  exact trailerResultWith_relaxed hp b _

/-- In the relaxed mode every trailer is validated, since TRAILER_MARKER_MODE is WMFD's. -/
theorem doValidate_relaxedParams (b : Byte) (s : State) : doValidate relaxedParams b s = atTrailer s := doValidate_wmfd b s

theorem readSample_writeField (s : State) (w : FieldWrite) : readSample (writeField s w) = (readSample s).write w := by
  cases w <;> rfl
theorem writeField_input (s : State) (w : FieldWrite) : (writeField s w).input = s.input := by
  cases w <;> rfl
theorem writeField_pubPending (s : State) (w : FieldWrite) : (writeField s w).pubPending = s.pubPending := by
  cases w <;> rfl

theorem stepWith_of_relaxedMove (hp : p.atomicPublish = false) {mv : Move} {t : State} (h : RelaxedMove p mv s t) :
    stepWith p mv s = .next t :=
  (stepWith_relaxed hp mv s).trans h.relaxedStep_eq

/-- While writes are pending the decoder performs one a turn, oldest first, and takes no word. -/
theorem runWith_performs_pending (hp : p.atomicPublish = false) (k : Nat) (s : State) (hk : k ≤ s.pubPending.length) :
    ∃ u, runWith p (List.replicate k .decoder) s = .next u ∧ u.pubPending = s.pubPending.drop k ∧ u.input = s.input
      ∧ readSample u = (s.pubPending.take k).foldl Snapshot.write (readSample s) := by
  induction k generalizing s with
  | zero => exact ⟨s, rfl, rfl, rfl, rfl⟩
  | succ k ih =>
    cases hw : s.pubPending with
    | nil =>
      rw [hw] at hk
      exact absurd hk (Nat.not_succ_le_zero k)
    | cons w ws =>
      have hpend := writeField_pubPending { s with pubPending := ws } w
      have hk' : k ≤ ws.length := by simpa [hw] using hk
      obtain ⟨u, hrun, hdrop, hin, hq⟩ :=
        ih ((writeField { s with pubPending := ws } w).record (.fieldWritten w)) (by rwa [record_pubPending, hpend])
      rw [record_pubPending, hpend] at hdrop hq
      refine ⟨u, ?_, hdrop, hin.trans (writeField_input _ w), hq.trans ?_⟩
      · rw [List.replicate_succ, runWith_cons_next (stepWith_of_relaxedMove hp (.perform hw)), hrun]
      · exact congrArg (ws.take k |>.foldl Snapshot.write) (readSample_writeField { s with pubPending := ws } w)

/-- The first `k` of a passing trailer's three writes. -/
theorem foldl_write_pass (q : Snapshot) (x y : Byte) (k : Nat) :
    (([.x x, .y y, .valid true] : List FieldWrite).take k).foldl Snapshot.write q
      = { x := if 1 ≤ k then x else q.x, y := if 2 ≤ k then y else q.y, valid := if 3 ≤ k then true else q.valid } := by
  match k with
  | 0 | 1 | 2 => rfl
  | k + 3 => simp [Snapshot.write]

/-- The first `k` of a failing trailer's one write. -/
theorem foldl_write_fail (q : Snapshot) (k : Nat) :
    (([.valid false] : List FieldWrite).take k).foldl Snapshot.write q
      = { x := q.x, y := q.y, valid := if 1 ≤ k then false else q.valid } := by
  match k with
  | 0 => rfl
  | k + 1 => simp [Snapshot.write]

end RelaxedTrailer

/-- Settles O53: the trailer's turn places the writes (`rxbResultWith_relaxed`), and further turns perform them
(`runWith_performs_pending`). -/
theorem relaxedTrailerPublishesFieldByField : Obligations.RelaxedTrailerPublishesFieldByField := by
  intro s b e ws hin hpend hr hpos he writes
  obtain rfl : sumMod256 (payloadPrefix s 6) = e := by simpa [checksum_eq] using he
  have hv : doValidate relaxedParams b (s.withPort ws) = true :=
    (doValidate_relaxedParams b _).trans (atTrailer_eq_true.mpr ⟨hr, hpos⟩)
  obtain ⟨hq, hw⟩ := rxbResultWith_relaxed relaxedParams_atomicPublish hv
  have hwrites : (rxbResultWith relaxedParams b (s.withPort ws)).pubPending = writes := by
    rw [hw, State.withPort_pubPending, hpend]
    rfl
  have hport : (rxbResultWith relaxedParams b (s.withPort ws)).input = ws := rxbResultWith_input _ _ _
  refine ⟨_, stepWith_of_relaxedMove relaxedParams_atomicPublish (.consume hpend hin), hport, hq, hwrites, fun k hk => ?_⟩
  obtain ⟨u, hrun, hdrop, hu, hsample⟩ := runWith_performs_pending relaxedParams_atomicPublish k _ (hwrites ▸ hk)
  rw [hwrites] at hdrop hsample
  refine ⟨u, hrun, hdrop, hu.trans hport, hsample.trans ?_⟩
  rw [hq]
  by_cases hb : b = sumMod256 (payloadPrefix s 6)
  · simp only [writes, if_pos hb]
    exact foldl_write_pass _ _ _ k
  · simp only [writes, if_neg hb]
    exact foldl_write_fail _ k

/-! ### A MIX of the relaxed mode that nothing interrupts (20_memory.md R59) -/

section RelaxedMix

variable {p : Config.Params} {s : State} {f g h : SampleField}

theorem PartialSnapshot.complete_of_unread {q : PartialSnapshot} (hf : q.unread f = true) : q.complete = none := by
  unfold PartialSnapshot.complete
  split
  next hx hy hv => cases f <;> simp [PartialSnapshot.unread, hx, hy, hv] at hf
  next => rfl

/-- A read takes its field off those unread, and no other. -/
theorem unread_readField (s : State) (f g : SampleField) :
    (readField s f).mixPartial.unread g = (decide (f ≠ g) && s.mixPartial.unread g) := by
  cases f <;> cases g <;> rfl

theorem readField_mixPartial_ne_empty (s : State) (f : SampleField) :
    (readField s f).mixPartial ≠ PartialSnapshot.empty := by
  cases f <;> simp [readField, PartialSnapshot.empty]

/-- Three reads in any of the six orders leave the whole sample in `mix_partial`. -/
theorem complete_of_reads (s : State) (hfg : f ≠ g) (hgh : g ≠ h) (hfh : f ≠ h) :
    (readField (readField (readField s f) g) h).mixPartial.complete = some (readSample s) :=
  match f, g, h, hfg, hgh, hfh with
  | .x, .y, .valid, _, _, _ => rfl
  | .x, .valid, .y, _, _, _ => rfl
  | .y, .x, .valid, _, _, _ => rfl
  | .y, .valid, .x, _, _, _ => rfl
  | .valid, .x, .y, _, _, _ => rfl
  | .valid, .y, .x, _, _, _ => rfl

/-- A MIX in progress reads a field that it has not read. -/
theorem RelaxedMove.read_next (s : State) (hg : (readField s f).mixPartial.unread g = true) :
    RelaxedMove p (.mixer g) (readField s f) (readField (readField s f) g) :=
  .read (PartialSnapshot.complete_of_unread hg) (readField_mixPartial_ne_empty s f) hg

/-- The reads write `mix_partial` alone, so the fourth sub-step does not see them. -/
theorem mixerFinish_readField (q : Snapshot) (s : State) (f : SampleField) :
    mixerFinish p q (readField s f) = mixerFinish p q s := by
  cases f <;> rfl

/-- With nothing read, the fourth sub-step with the sample itself is what is left of the atomic MIX. -/
theorem mixerFinish_readSample (hq : s.mixPartial = PartialSnapshot.empty) :
    mixerFinish p (readSample s) (s.record (.accepted .mix)) = mixResultWith p s := by
  rw [mixerFinish, ← hq]
  rfl

/-- After its first read a MIX that nothing interrupts reads the two other fields and drives from the sample. -/
theorem runWith_reads_and_drives (hp : p.atomicPublish = false) (hq : s.mixPartial = PartialSnapshot.empty)
    (hfg : f ≠ g) (hgh : g ≠ h) (hfh : f ≠ h) (l : SampleField) :
    runWith p [.mixer g, .mixer h, .mixer l] (readField s f) = .next (mixerFinish p (readSample s) s) := by
  have hnone : ∀ k, s.mixPartial.unread k = true := fun k => by rw [hq]; cases k <;> rfl
  have hg : (readField s f).mixPartial.unread g = true := by
    rw [unread_readField, decide_eq_true hfg, hnone, Bool.and_self]
  have hh : (readField (readField s f) g).mixPartial.unread h = true := by
    rw [unread_readField, unread_readField, decide_eq_true hgh, decide_eq_true hfh, hnone, Bool.and_self, Bool.and_self]
  rw [runWith_cons_next (stepWith_of_relaxedMove hp (.read_next s hg)),
    runWith_cons_next (stepWith_of_relaxedMove hp (.read_next _ hh)),
    runWith_cons_next (stepWith_of_relaxedMove hp (.finish (complete_of_reads s hfg hgh hfh))), runWith_nil]
  simp only [mixerFinish_readField]

end RelaxedMix

/-- Settles O54: the first move takes the word and reads, the others read and drive (`runWith_reads_and_drives`), and the
drive is that of the atomic MIX (`mixerFinish_readSample`). -/
theorem relaxedMixAgreesInEveryReadOrder : Obligations.RelaxedMixAgreesInEveryReadOrder := by
  intro s ws f g h l hin hq hfg hgh hfh
  refine ⟨mixResultWith relaxedParams (s.withPort ws), ?_, rfl, (mixFrom_mixPartial _ _ _).trans hq⟩
  calc runWith relaxedParams [.mixer f, .mixer g, .mixer h, .mixer l] s
    _ = runWith relaxedParams [.mixer g, .mixer h, .mixer l] (readField ((s.withPort ws).record (.accepted .mix)) f) :=
        runWith_cons_next (stepWith_of_relaxedMove relaxedParams_atomicPublish (.start hq hin)) _
    _ = .next (mixerFinish relaxedParams (readSample (s.withPort ws)) ((s.withPort ws).record (.accepted .mix))) :=
        runWith_reads_and_drives (s := (s.withPort ws).record (.accepted .mix)) relaxedParams_atomicPublish hq
          hfg hgh hfh l
    _ = .next (mixResultWith relaxedParams (s.withPort ws)) :=
        congrArg Host.Outcome.next (mixerFinish_readSample (s := s.withPort ws) hq)

/-! ### The observation port (20_memory.md R55, 30_encoding.md R83) -/

/-- What the observation port shows of a sample and of outputs. -/
def observationOf (q : Snapshot) (o : Outputs) : Observation :=
  { obsSampleX := q.x, obsSampleY := q.y, obsSampleValid := BitVec.ofBool q.valid
    obsDirA := o.dirA.toBit, obsDutyA := o.dutyA, obsDirB := o.dirB.toBit, obsDutyB := o.dutyB }

theorem observe_eq_observationOf (s : State) : observe s = observationOf (readSample s) s.outputs := rfl

theorem Direction.toBit_eq_one_iff (d : Direction) : d.toBit = 1#1 ↔ d = .reverse := by
  cases d <;> decide

/-- Settles O59: the observation is a function of the sample and the outputs (`observe_eq_observationOf`). -/
theorem observationPortShowsSampleAndOutputs : Obligations.ObservationPortShowsSampleAndOutputs := by
  intro s
  refine ⟨rfl, rfl, BitVec.ofBool_eq_iff_eq (b' := true), Direction.toBit_eq_one_iff _, rfl, Direction.toBit_eq_one_iff _,
    rfl, fun s' hq ho => ?_⟩
  rw [observe_eq_observationOf, observe_eq_observationOf, hq, ho]

end Machine

end Sys2Proof

/-! Encoding (30_encoding.md): the words of the operations and of programs, reserved words at the port, and the frames that
words carry, from the pseudo-instructions that write them to the decoder that reads them. -/

namespace Sys2Proof

/-! ### Words by their numbers (30_encoding.md R76 to R79) -/

theorem encode_rxb_toNat (b : Byte) : (encode (.rxb b)).toNat = b.toNat :=
  (BitVec.toNat_append 0b00#2 b).trans (by simp)

theorem OpWord.reserved_iff {w : OpWord} : w.reserved = true ↔
    (0x101 ≤ w.toNat ∧ w.toNat ≤ 0x1FF) ∨ (0x201 ≤ w.toNat ∧ w.toNat ≤ 0x2FF) ∨ 0x300 ≤ w.toNat := by
  simp only [OpWord.reserved, Bool.or_eq_true, Bool.and_eq_true, decide_eq_true_eq, or_assoc]

theorem OpWord.eq_encode_rxb_of_le {w : OpWord} (h : w.toNat ≤ 0x0FF) : w = encode (.rxb (BitVec.ofNat 8 w.toNat)) := by
  apply BitVec.eq_of_toNat_eq
  rw [encode_rxb_toNat, BitVec.toNat_ofNat]
  omega

theorem decode_eq_reserved_iff {w : OpWord} : decode w = .error (.reservedWord w) ↔ w.reserved = true :=
  decode_eq_error_iff.trans (and_iff_left rfl)

/-- Settles O1: five of the words are the encodings of the operations named, and two are reserved. -/
theorem sampleWordsDecodeAsTheSpecWritesThem : Obligations.SampleWordsDecodeAsTheSpecWritesThem :=
  ⟨decode_encode (.rxb 0x00#8), decode_encode (.rxb 0xFF#8), decode_encode (.rxb 0x80#8), decode_encode .mix,
    decode_of_reserved rfl, decode_encode .rst, decode_of_reserved rfl⟩

/-- Settles O2: a word decodes to an operation when it is its encoding (`decode_eq_ok_iff`), whose number is known. -/
theorem decoderClassifiesEveryWord : Obligations.DecoderClassifiesEveryWord := by
  intro w
  refine ⟨fun hle => decode_eq_ok_iff.mpr (OpWord.eq_encode_rxb_of_le hle), fun b hb => ?_,
    decode_eq_ok_iff.trans BitVec.toNat_inj.symm, decode_eq_ok_iff.trans BitVec.toNat_inj.symm,
    OpWord.reserved_iff.symm.trans decode_eq_reserved_iff.symm⟩
  rw [decode_eq_ok_iff.mp hb, encode_rxb_toNat]

/-! ### Programs of words (30_encoding.md R75) -/

/-- A program of words decodes when its first word and the rest do. -/
theorem mapM_decode_cons_eq_ok_iff {w : OpWord} {ws : List OpWord} {is : List Instr} :
    (w :: ws).mapM decode = .ok is ↔ ∃ i js, decode w = .ok i ∧ ws.mapM decode = .ok js ∧ is = i :: js := by
  rw [List.mapM_cons]
  cases hw : decode w with
  | error e => simp [bind, Except.bind]
  | ok i => cases hws : ws.mapM decode <;> simp [bind, Except.bind, pure, Except.pure, eq_comm]

theorem mapM_decode_eq_ok_iff {ws : List OpWord} {is : List Instr} : ws.mapM decode = .ok is ↔ ws = is.map encode := by
  induction ws generalizing is with
  | nil => simp [pure, Except.pure, eq_comm]
  | cons w ws ih =>
    calc (w :: ws).mapM decode = .ok is
      _ ↔ ∃ i js, w = encode i ∧ ws = js.map encode ∧ is = i :: js := by
        simp only [mapM_decode_cons_eq_ok_iff, decode_eq_ok_iff, ih]
      _ ↔ w :: ws = is.map encode := by cases is <;> simp

/-- Settles O3: by induction on the program (`mapM_decode_eq_ok_iff`), from `decode_eq_ok_iff` for one word. -/
theorem decodeAndEncodeAgreeOnPrograms : Obligations.DecodeAndEncodeAgreeOnPrograms :=
  ⟨fun i _ => decode_encode i, fun _ _ => mapM_decode_eq_ok_iff⟩

namespace Machine

/-! ### Words at the port (30_encoding.md R75, 60_exceptions.md R162) -/

/-- Settles O6: the ranges are those of the reserved words, and the step refuses such a word. -/
theorem reservedWordIsRefusedAndRecorded : Obligations.ReservedWordIsRefusedAndRecorded := by
  intro s w ws hin hrange
  exact step_of_reserved hin (OpWord.reserved_iff.mpr hrange)

/-- The ten lines of the port carry a word of the model as it is. -/
theorem portWord_toNat (w : OpWord) : portWord 16 w.toNat = w := by
  apply BitVec.eq_of_toNat_eq
  rw [portWord, BitVec.toNat_ofNat]
  omega

/-- Settles O10: the port carries the operation's word unchanged (`portWord_toNat`), and the step takes it again. -/
theorem fetchWordRunsNext : Obligations.FetchWordRunsNext := by
  intro i s
  refine ⟨by rw [decodeTableWord, portWord_toNat, decode_encode], ?_⟩
  rw [State.withFetchWord, portWord_toNat, step_of_decode rfl (decode_encode i)]
  rfl

/-! ### Pseudo-instructions (30_encoding.md R85) -/

theorem rxbWords_map_toNat (bs : List Byte) : rxbWords (bs.map BitVec.toNat) = (feed bs).map encode := by
  simp [rxbWords, feed, Function.comp_def]

/-- The numbers of bytes are in the range that a line's numerals must have. -/
theorem map_toNat_all_lt (bs : List Byte) : (bs.map BitVec.toNat).all (fun n => decide (n < 256)) = true := by
  simp only [List.all_map, List.all_eq_true, Function.comp_apply, decide_eq_true_eq]
  exact fun b _ => b.isLt

theorem frameBytes_map_toNat (p : Payload) (c : Byte) :
    (frameBytes p c).map BitVec.toNat = [0x00, 0xFF] ++ p.bytes.map BitVec.toNat ++ [c.toNat] := by
  simp [frameBytes]

theorem Payload.checksum_toNat (p : Payload) : p.checksum.toNat = (p.bytes.map BitVec.toNat).sum % 256 := by
  simp [Payload.checksum, Payload.bytes, Nat.add_assoc]

theorem words_bytes {bs : List Byte} (h : bs ≠ []) :
    (Line.bytes (bs.map BitVec.toNat)).words = some ((feed bs).map encode) := by
  have hwf : (Line.bytes (bs.map BitVec.toNat)).wellFormed = true := by
    rw [Line.wellFormed, map_toNat_all_lt]
    simpa using h
  rw [Line.words, if_pos hwf]
  exact congrArg some (rxbWords_map_toNat bs)

theorem words_frame (p : Payload) :
    (Line.frame (p.bytes.map BitVec.toNat)).words = some ((feed (frameBytes p p.checksum)).map encode) := by
  have hwf : (Line.frame (p.bytes.map BitVec.toNat)).wellFormed = true := by
    rw [Line.wellFormed, map_toNat_all_lt]
    rfl
  rw [Line.words, if_pos hwf, ← rxbWords_map_toNat, frameBytes_map_toNat, Payload.checksum_toNat]

theorem words_badframe (p : Payload) (c : Byte) :
    (Line.badframe ((p.bytes ++ [c]).map BitVec.toNat)).words = some ((feed (frameBytes p c)).map encode) := by
  have hwf : (Line.badframe ((p.bytes ++ [c]).map BitVec.toNat)).wellFormed = true := by
    rw [Line.wellFormed, map_toNat_all_lt]
    rfl
  rw [Line.words, if_pos hwf, ← rxbWords_map_toNat, frameBytes_map_toNat, List.map_append, List.append_assoc]
  rfl

/-- Settles O58, one pseudo-instruction at a time. -/
theorem pseudoInstructionsExpandToRxbWords : Obligations.PseudoInstructionsExpandToRxbWords :=
  ⟨fun _ h => words_bytes h, fun p c => ⟨words_frame p, words_badframe p c⟩⟩

/-! ### What a stream of bytes leaves -/

/-- The state that RXB of each byte of a stream leaves, one after the other. -/
def State.afterBytes (s : State) (bs : List Byte) : State := bs.foldl (fun u b => rxbResult b u) s

theorem execAll_feed (bs : List Byte) (s : State) : execAll (feed bs) s = .next (s.afterBytes bs) := by
  rw [execAll_eq, feed, List.foldl_map]
  rfl

theorem State.afterBytes_append (s : State) (bs cs : List Byte) :
    s.afterBytes (bs ++ cs) = (s.afterBytes bs).afterBytes cs := List.foldl_append

theorem State.afterBytes_snoc (s : State) (bs : List Byte) (b : Byte) :
    s.afterBytes (bs ++ [b]) = rxbResult b (s.afterBytes bs) := s.afterBytes_append bs [b]

@[simp] theorem State.afterBytes_outputs (s : State) (bs : List Byte) : (s.afterBytes bs).outputs = s.outputs := by
  induction bs generalizing s with
  | nil => rfl
  | cons b bs ih => exact (ih _).trans (rxbResult_outputs b s)

/-! ### A frame on the wire, from its marker to its trailer (40_decoder.md R116) -/

theorem Payload.eq_of_bytes_eq {p q : Payload} (h : p.bytes = q.bytes) : p = q := by
  cases p
  cases q
  simpa [Payload.bytes] using h

section Frame

variable {s u : State} {b : Byte} {bs : List Byte}

/-- A byte that completes a marker starts a frame, be it a trailer or not (40_decoder.md R104, R106, R108). -/
theorem rxbResult_of_marker (hm : marker s b = true) :
    (rxbResult b s).reading = true ∧ (rxbResult b s).position = 0#3 := by
  rw [rxbResult, hm]
  exact ⟨rfl, rfl⟩

/-- Inside the payload a byte that completes no marker is appended (40_decoder.md R105). -/
theorem rxbResult_of_append (hr : s.reading = true) (hlt : s.position.toNat < 6) (hm : marker s b = false) :
    rxbResult b s = { s with
      payload := s.payload.write s.position.toNat b, position := s.position + 1#3, prevByte := b
      history := s.history ++ [.accepted (.rxb b)] } := by
  have ht : ¬ atTrailer (s.record (.accepted (.rxb b))) = true := by
    rw [atTrailer_record, atTrailer_eq_true]
    rintro ⟨-, hp⟩
    simp [hp] at hlt
  rw [rxbResult, rxbMiddle_append ht ⟨hr, hlt, hm⟩, hm]
  rfl

/-- A trailer leaves PAY as it is. -/
theorem rxbResult_payload_of_atTrailer (ht : atTrailer s = true) : (rxbResult b s).payload = s.payload := by
  rcases rxbResult_cases b s with ⟨hno, -⟩ | ⟨hno, -⟩ | ⟨hno, -⟩ | ⟨-, -, h⟩ | ⟨-, -, h⟩
  · simp [ht] at hno
  · simp [ht] at hno
  · simp [ht] at hno
  · rw [h]
  · rw [h]

theorem hasMarker_snoc_eq_false : hasMarker (bs ++ [b]) = false ↔
    hasMarker bs = false ∧ ¬ (bs.getLast? = some 0x00#8 ∧ b = 0xFF#8) := by
  rw [← Bool.not_eq_true, hasMarker_snoc, not_or, Bool.not_eq_true]

/-- Since its marker, which left `u`, the current frame has accumulated the bytes `bs` and has reported nothing. -/
structure State.AccumulatedSince (u s : State) (bs : List Byte) : Prop where
  reading : s.reading = true
  position : s.position.toNat = bs.length
  payload : payloadPrefix s bs.length = bs
  /-- Before the first payload byte, `prev_byte` is the marker's second byte. -/
  prev : s.prevByte = bs.getLastD Config.marker1
  sample : readSample s = readSample u
  diagLog : s.diagLog = u.diagLog

/-- The state that the marker's two bytes leave. -/
def State.afterMarker (s : State) : State := s.afterBytes [0x00#8, 0xFF#8]

/-- The marker's two bytes open a frame that has accumulated nothing, whatever the state before them. -/
theorem State.accumulatedSince_afterMarker (s : State) : s.afterMarker.AccumulatedSince s.afterMarker [] := by
  have hm : marker (rxbResult 0x00#8 s) 0xFF#8 = true := marker_eq_true.mpr ⟨rxbResult_prevByte _ _, rfl⟩
  obtain ⟨hr, hp⟩ := rxbResult_of_marker hm
  exact ⟨hr, congrArg BitVec.toNat hp, rfl, rxbResult_prevByte _ _, rfl, rfl⟩

/-- A payload byte after which the payload still holds no marker completes none with the bytes before it. -/
theorem State.AccumulatedSince.marker_eq_false (h : u.AccumulatedSince s bs)
    (hno : hasMarker (bs ++ [b]) = false) : marker s b = false := by
  obtain ⟨-, hlast⟩ := hasMarker_snoc_eq_false.mp hno
  rw [Machine.marker_eq_false]
  rintro ⟨hprev, hb⟩
  rw [h.prev, List.getLastD_eq_getLast?] at hprev
  cases hl : bs.getLast? with
  | none => rw [hl] at hprev; cases hprev
  | some a =>
    rw [hl, Option.getD_some] at hprev
    exact hlast ⟨hl.trans (congrArg some hprev), hb⟩

/-- A payload byte that completes no marker is accumulated. -/
theorem State.AccumulatedSince.snoc (h : u.AccumulatedSince s bs) (hlen : bs.length < 6)
    (hno : hasMarker (bs ++ [b]) = false) : u.AccumulatedSince (rxbResult b s) (bs ++ [b]) := by
  have hpos := h.position
  have happ := rxbResult_of_append h.reading (hpos ▸ hlen) (h.marker_eq_false hno)
  rw [happ]
  constructor
  case reading => exact h.reading
  case position =>
    rw [List.length_append, List.length_singleton, BitVec.toNat_add, hpos]
    exact Nat.mod_eq_of_lt (by simp; omega)
  case payload =>
    rw [List.length_append, List.length_singleton, payloadPrefix_succ_of_write (s := s) (b := b) (by rw [hpos]), h.payload]
  case prev => rw [List.getLastD_concat]
  case sample => exact h.sample
  case diagLog => exact h.diagLog

/-- At most six bytes without a marker among them are accumulated as sent. -/
theorem State.AccumulatedSince.afterBytes (h : u.AccumulatedSince u []) (hlen : bs.length ≤ 6)
    (hno : hasMarker bs = false) : u.AccumulatedSince (u.afterBytes bs) bs := by
  induction bs using List.reverseRecOn with
  | nil => exact h
  | append_singleton bs b ih =>
    rw [List.length_append, List.length_singleton] at hlen
    obtain ⟨hbs, -⟩ := hasMarker_snoc_eq_false.mp hno
    rw [State.afterBytes_snoc]
    exact (ih (by omega) hbs).snoc (by omega) hno

theorem State.AccumulatedSince.atTrailer (h : u.AccumulatedSince s bs) (hlen : bs.length = 6) :
    atTrailer s = true :=
  atTrailer_eq_true.mpr ⟨h.reading, BitVec.eq_of_toNat_eq (h.position.trans hlen)⟩

end Frame

section Trailer

variable {u v : State} {p : Payload} (h : u.AccumulatedSince v p.bytes)

include h

/-- After the six payload bytes, PAY is the payload. -/
theorem State.AccumulatedSince.payloadRead_eq : v.payloadRead = p := Payload.eq_of_bytes_eq h.payload

theorem State.AccumulatedSince.sum_eq : sumMod256 (payloadPrefix v 6) = p.checksum :=
  (congrArg sumMod256 h.payload).trans (sumMod256_bytes p)

/-- The checksum as trailer publishes the first two payload bytes and adds no record (40_decoder.md R111). -/
theorem State.AccumulatedSince.trailer_pass : readSample (rxbResult p.checksum v) = { x := p.p0, y := p.p1, valid := true }
    ∧ (rxbResult p.checksum v).diagLog = u.diagLog := by
  constructor
  · rw [rxbResult_sample, if_pos (h.atTrailer rfl), if_pos h.sum_eq.symm, ← h.payloadRead_eq]
    rfl
  · rw [rxbResult_diagLog, if_neg fun hfail => hfail.2 h.sum_eq.symm, h.diagLog]

/-- Any other trailer clears `valid` alone and adds one record (40_decoder.md R112, R113). -/
theorem State.AccumulatedSince.trailer_fail {c : Byte} (hc : c ≠ p.checksum) :
    readSample (rxbResult c v) = { x := u.sampleX, y := u.sampleY, valid := false }
    ∧ (rxbResult c v).diagLog = u.diagLog ++ [{ code := 0x01#8, observed := c, expected := p.checksum }] := by
  rw [← h.sum_eq] at hc
  constructor
  · obtain ⟨hx, hy, -⟩ := Snapshot.mk.inj h.sample
    rw [rxbResult_sample, if_pos (h.atTrailer rfl), if_neg hc, hx, hy]
  · rw [rxbResult_diagLog, if_pos ⟨h.atTrailer rfl, hc⟩, h.diagLog, h.sum_eq]

/-- The trailer leaves the payload in PAY. -/
theorem State.AccumulatedSince.trailer_payload (c : Byte) : payloadPrefix (rxbResult c v) 6 = p.bytes := by
  rw [payloadPrefix, rxbResult_payload_of_atTrailer (h.atTrailer rfl)]
  exact h.payload

end Trailer

/-- Settles O21: the marker opens a frame in every state, the payload is accumulated as sent because it holds no marker
(`State.AccumulatedSince.afterBytes`), and the trailer passes or fails. -/
theorem frameDecodesAsSentFromEveryState : Obligations.FrameDecodesAsSentFromEveryState := by
  intro s p c hno
  have h := s.accumulatedSince_afterMarker.afterBytes (bs := p.bytes) le_rfl hno
  have htail : s.afterMarker.afterBytes (p.bytes ++ [c]) = rxbResult c (s.afterMarker.afterBytes p.bytes) :=
    State.afterBytes_snoc _ _ c
  have hframe : s.afterBytes (frameBytes p c) = s.afterMarker.afterBytes (p.bytes ++ [c]) := by
    rw [frameBytes, List.append_assoc, State.afterBytes_append, State.afterMarker]
  refine ⟨s.afterMarker, rxbResult c (s.afterMarker.afterBytes p.bytes), execAll_feed _ s, ?_, ?_, h.trailer_payload c,
    rxbResult_prevByte c _, ?_, fun hc => ?_, fun hc => ?_⟩
  · rw [execAll_feed, htail]
  · rw [execAll_feed, hframe, htail]
  · rw [rxbResult_outputs, State.afterBytes_outputs, State.afterMarker, State.afterBytes_outputs]
  · obtain ⟨hq, hlog⟩ := h.trailer_pass
    obtain ⟨hx, hy, hvalid⟩ := Snapshot.mk.inj hq
    rw [hc]
    exact ⟨hx, hy, hvalid, hlog⟩
  · obtain ⟨hq, hlog⟩ := h.trailer_fail hc
    obtain ⟨hx, hy, hvalid⟩ := Snapshot.mk.inj hq
    exact ⟨hx, hy, hvalid, hlog⟩

end Machine

end Sys2Proof

/-! The decoder, operation by operation (40_decoder.md): what RXB writes and reads (R117), what streams of bytes do to the
frame and to the outputs (R103, R106, R198), the cases of RXB (R103 to R109) and the checksum (R110). -/

namespace Sys2Proof

namespace Machine

/-! ### RXB works on the decoder's part of the state alone (40_decoder.md R117) -/

/-- The state with the decoder's part of another state and that state's events added to the history. -/
def State.withDecoderOf (s u : State) : State :=
  { s with
    prevByte := u.prevByte, reading := u.reading, position := u.position, payload := u.payload
    sampleX := u.sampleX, sampleY := u.sampleY, sampleValid := u.sampleValid
    diagLog := u.diagLog, pubPending := u.pubPending, history := s.history ++ u.history }

theorem State.withDecoderOf_decoderView (s u : State) : (s.withDecoderOf u).decoderView = u.decoderView := rfl

/-- A state takes nothing new from its own decoder part. -/
theorem State.withDecoderOf_self (s : State) : s.withDecoderOf s.decoderView.toState = s :=
  congrArg (fun h => { s with history := h }) (List.append_nil s.history)

section DecoderLocal

variable (p : Config.Params) (b : Byte) (s : State)

theorem pending_local (ws : List FieldWrite) : { s with pubPending := s.pubPending ++ ws }
    = s.withDecoderOf { s.decoderView.toState with pubPending := s.pubPending ++ ws } :=
  congrArg (fun u : State => { u with pubPending := s.pubPending ++ ws }) s.withDecoderOf_self.symm

theorem publishPass_local (x y : Byte) :
    publishPass p x y s = s.withDecoderOf (publishPass p x y s.decoderView.toState) := by
  cases hp : p.atomicPublish
  · simp only [publishPass, hp]
    exact pending_local s _
  · simp only [publishPass, hp]
    rfl

theorem publishFail_local : publishFail p s = s.withDecoderOf (publishFail p s.decoderView.toState) := by
  cases hp : p.atomicPublish
  · simp only [publishFail, hp]
    exact pending_local s _
  · simp only [publishFail, hp]
    rfl

theorem emit_withDecoderOf (r : DiagRecord) (u : State) : emit r (s.withDecoderOf u) = s.withDecoderOf (emit r u) := by
  simp only [emit, State.record, State.withDecoderOf, List.append_assoc]

theorem finishByte_withDecoderOf (start : Bool) (u : State) :
    finishByte start b (s.withDecoderOf u) = s.withDecoderOf (finishByte start b u) := by
  cases start <;> rfl

theorem trailerResultWith_local :
    trailerResultWith p b s = s.withDecoderOf (trailerResultWith p b s.decoderView.toState) := by
  by_cases hb : b = sumMod256 (payloadPrefix s 6)
  · have hb' : b = sumMod256 (payloadPrefix s.decoderView.toState 6) := hb
    rw [trailerResultWith, trailerResultWith, if_pos hb, if_pos hb', publishPass_local]
    rfl
  · have hb' : b ≠ sumMod256 (payloadPrefix s.decoderView.toState 6) := hb
    rw [trailerResultWith, trailerResultWith, if_neg hb, if_neg hb', publishFail_local, emit_withDecoderOf]
    rfl

theorem rxbMiddleWith_local : rxbMiddleWith p b s = s.withDecoderOf (rxbMiddleWith p b s.decoderView.toState) := by
  by_cases hv : doValidate p b s = true
  · have hv' : doValidate p b s.decoderView.toState = true := hv
    rw [rxbMiddleWith, rxbMiddleWith, if_pos hv, if_pos hv', trailerResultWith_local]
  · have hv' : ¬ doValidate p b s.decoderView.toState = true := hv
    rw [rxbMiddleWith, rxbMiddleWith, if_neg hv, if_neg hv']
    by_cases ha : s.reading = true ∧ s.position.toNat < 6 ∧ marker s b = false
    · have ha' : s.decoderView.toState.reading = true ∧ s.decoderView.toState.position.toNat < 6
          ∧ marker s.decoderView.toState b = false := ha
      rw [if_pos ha, if_pos ha']
      exact congrArg
        (fun u : State => { u with payload := s.payload.write s.position.toNat b, position := s.position + 1#3 })
        s.withDecoderOf_self.symm
    · have ha' : ¬ (s.decoderView.toState.reading = true ∧ s.decoderView.toState.position.toNat < 6
          ∧ marker s.decoderView.toState b = false) := ha
      rw [if_neg ha, if_neg ha']
      exact s.withDecoderOf_self.symm

/-- What RXB leaves is the old state with what RXB makes of its decoder part: nothing else is written or read. -/
theorem rxbResultWith_local : rxbResultWith p b s = s.withDecoderOf (rxbResultWith p b s.decoderView.toState) := by
  have hpart : ∀ u : State, rxbResultWith p b u = finishByte (doStart p b u) b
      ((u.record (.accepted (.rxb b))).withDecoderOf (rxbMiddleWith p b u.decoderView.toState)) := fun u => by
    rw [rxbResultWith, rxbMiddleWith_local]
    rfl
  rw [hpart s, hpart s.decoderView.toState, ← finishByte_withDecoderOf]
  simp only [State.withDecoderOf, record_history, List.append_assoc]
  rfl

/-- With ATOMIC_PUBLISH no write is left pending (10_state.md R37). -/
theorem rxbResultWith_pubPending (hp : p.atomicPublish = true) : (rxbResultWith p b s).pubPending = s.pubPending := by
  rw [rxbResultWith, finishByte_pubPending, rxbMiddleWith]
  split_ifs
  · rw [trailerResultWith, publishPass, publishFail, if_pos hp, if_pos hp]
    split <;> rfl
  · rfl
  · rfl

end DecoderLocal

/-- Settles O19: RXB writes and reads the decoder's part alone (`rxbResultWith_local`), so equal parts become equal ones. -/
theorem rxbStaysInsideTheDecoder : Obligations.RxbStaysInsideTheDecoder := by
  intro p b s s'
  have h := rxbResultWith_local p b s
  have h' := rxbResultWith_local p b s'
  refine ⟨rxbResultWith p b s, rxbResultWith p b s', rxbWith_eq p b s, rxbWith_eq p b s', ?_, ?_, ?_, ?_,
    rxbResultWith_pubPending p b s, fun hview => ?_⟩
  · rw [h]; rfl
  · rw [h]; rfl
  · rw [h]; rfl
  · rw [h]; rfl
  · rw [h, h', State.withDecoderOf_decoderView, State.withDecoderOf_decoderView, hview]

/-! ### Streams of bytes -/

/-- Settles O20: the marker's two bytes open a frame in every state (`accumulatedSince_afterMarker`). -/
theorem markerResynchronisesEveryState : Obligations.MarkerResynchronisesEveryState := by
  intro s
  have h := s.accumulatedSince_afterMarker
  exact ⟨s.afterMarker, execAll_feed _ s, h.reading, BitVec.eq_of_toNat_eq h.position, h.prev, s.afterBytes_outputs _⟩

/-- A property that each operation of a list keeps holds after the list's run. -/
theorem execAll_keeps {P : State → Prop} {is : List Instr} {s t : State} (hrun : execAll is s = .next t) (hs : P s)
    (hexec : ∀ i ∈ is, ∀ u, P u → P (execResult i u)) : P t := by
  rw [execAll_eq, Host.Outcome.next.injEq] at hrun
  rw [← hrun]
  exact List.foldlRecOn is _ hs fun u hu i hi => hexec i hi u hu

/-- Settles O23: every operation keeps the no-marker invariant, and the reset state meets it. -/
theorem noMarkerNoFrame : Obligations.NoMarkerNoFrame := by
  intro is t hrun hno
  obtain ⟨-, -, -, hreset, -⟩ := resetMeetsTheInvariants
  have hinv : t.NoMarkerInv := execAll_keeps hrun hreset fun i _ _ h => h.execResult i
  obtain ⟨hr, hq⟩ := hinv.idle_without_marker hno
  exact ⟨hr, Snapshot.mk.inj hq⟩

/-- The output registers hold `o` and the sample is not valid, so that no MIX changes them (41_mixer.md R132). -/
def State.Holds (s : State) (o : Outputs) : Prop := s.sampleValid = false ∧ s.outputs = o

theorem State.Holds.mixResult {s : State} {o : Outputs} (h : s.Holds o) : (mixResult s).Holds o := by
  obtain ⟨hv, ho⟩ := h
  rw [mixResult_of_invalid hv]
  exact ⟨hv, ho⟩

/-- Settles O35: no byte writes the outputs, and while the sample is not valid no MIX does (`State.Holds.mixResult`). -/
theorem heldCommandSurvivesNoise : Obligations.HeldCommandSurvivesNoise := by
  intro s bs n
  have hmix := execAll_eq (List.replicate n .mix) (s.afterBytes bs)
  refine ⟨s.afterBytes bs, _, execAll_feed bs s, s.afterBytes_outputs bs, hmix, fun hv => ?_⟩
  refine (execAll_keeps (P := (State.Holds · s.outputs)) hmix ⟨hv, s.afterBytes_outputs bs⟩ fun i hi u hu => ?_).2
  rw [List.eq_of_mem_replicate hi]
  exact hu.mixResult

/-! ### The checksum (40_decoder.md R110) -/

section Checksum

variable (s : State)

theorem sumMod256_payload_toNat : (sumMod256 (payloadPrefix s 6)).toNat
    = ((s.payload.read 0).toNat + (s.payload.read 1).toNat + (s.payload.read 2).toNat
      + (s.payload.read 3).toNat + (s.payload.read 4).toNat + (s.payload.read 5).toNat) % 256 := by
  rw [payloadPrefix_six, sumMod256_bytes, Payload.checksum_toNat]
  simp [Payload.bytes, State.payloadRead, Nat.add_assoc]

/-- One reduction at the end gives what reducing after each addition gives. -/
theorem sumMod256_payload_eq_add : sumMod256 (payloadPrefix s 6)
    = s.payload.read 0 + s.payload.read 1 + s.payload.read 2 + s.payload.read 3 + s.payload.read 4
      + s.payload.read 5 := by
  apply BitVec.eq_of_toNat_eq
  rw [sumMod256_payload_toNat]
  simp only [BitVec.toNat_add, Nat.mod_add_mod]

/-- A byte whose number is the sum mod 256 is the checksum. -/
theorem eq_sumMod256_payload {s : State} {e : Byte}
    (he : e.toNat = ((s.payload.read 0).toNat + (s.payload.read 1).toNat + (s.payload.read 2).toNat
      + (s.payload.read 3).toNat + (s.payload.read 4).toNat + (s.payload.read 5).toNat) % 256) :
    e = sumMod256 (payloadPrefix s 6) :=
  BitVec.eq_of_toNat_eq (he.trans (sumMod256_payload_toNat s).symm)

end Checksum

/-- Settles O18: six bytes of at most 255 each add up to at most 1530. -/
theorem checksumIsTheSumMod256 : Obligations.ChecksumIsTheSumMod256 := by
  intro s
  refine ⟨sumMod256 (payloadPrefix s 6), checksum_eq s, ⟨sumMod256_payload_toNat s, ?_⟩,
    sumMod256_payload_eq_add s, fun b => BitVec.toNat_inj.symm⟩
  have hlt (a : Nat) : (s.payload.read a).toNat < 256 := (s.payload.read a).isLt
  have h0 := hlt 0
  have h1 := hlt 1
  have h2 := hlt 2
  have h3 := hlt 3
  have h4 := hlt 4
  have h5 := hlt 5
  omega

/-! ### RXB outside the trailer (40_decoder.md R103 to R106) -/

section Cases

variable {s : State} {b : Byte}

/-- WMFD's RXB is the parametric one at WMFD's values (00_scope.md R8). -/
theorem exec_rxb_eq_with (b : Byte) (s : State) : exec (.rxb b) s = .next (rxbResultWith Config.wmfd b s) :=
  rxbWith_eq Config.wmfd b s

/-- Scanning, a byte that completes no marker changes `prev_byte` alone (40_decoder.md R103). -/
theorem rxbResult_of_scan (hr : s.reading = false) (hm : marker s b = false) :
    rxbResult b s = { s with prevByte := b, history := s.history ++ [.accepted (.rxb b)] } := by
  rw [rxbResult, rxbMiddle_none (by simp [atTrailer, hr]) (by simp [hr]), hm]
  rfl

/-- A byte that starts a frame and is not validated does nothing else (40_decoder.md R104, R106, R108). -/
theorem rxbResultWith_of_start {p : Config.Params} (hv : doValidate p b s = false) (hst : doStart p b s = true) :
    rxbResultWith p b s = { s with
      position := 0#3, reading := true, prevByte := b, history := s.history ++ [.accepted (.rxb b)] } := by
  have hm : marker s b = true := (Bool.and_eq_true_iff.mp hst).1
  have hmid : rxbMiddleWith p b (s.record (.accepted (.rxb b))) = s.record (.accepted (.rxb b)) := by
    rw [rxbMiddleWith, if_neg (Bool.not_eq_true _ ▸ hv), if_neg (by simp [hm])]
  have hstart : doStart p b (s.record (.accepted (.rxb b))) = true := hst
  rw [rxbResultWith, hmid, hstart]
  rfl

/-- In WMFD that is every marker outside the trailer. -/
theorem exec_rxb_of_start (ht : atTrailer s = false) (hm : marker s b = true) :
    exec (.rxb b) s = .next { s with
      position := 0#3, reading := true, prevByte := b, history := s.history ++ [.accepted (.rxb b)] } := by
  rw [exec_rxb_eq_with, rxbResultWith_of_start ((doValidate_wmfd b s).trans ht) ((doStart_wmfd b s).trans hm)]

end Cases

/-- Settles O11. -/
theorem rxbIdleOnlyUpdatesPrevByte : Obligations.RxbIdleOnlyUpdatesPrevByte := by
  intro s b hr hm
  rw [exec_eq, execResult, rxbResult_of_scan hr (marker_eq_false.mpr hm)]

/-- Settles O12. -/
theorem rxbStartEntersTheFrame : Obligations.RxbStartEntersTheFrame := by
  intro s hr hprev
  exact exec_rxb_of_start (by simp [atTrailer, hr]) (marker_eq_true.mpr ⟨hprev, rfl⟩)

/-- Settles O13: the byte is appended (`rxbResult_of_append`), and the laws of PAY say what is read after it. -/
theorem rxbAppendStoresAtPosition : Obligations.RxbAppendStoresAtPosition := by
  intro s b hr hlt hm
  have happ := rxbResult_of_append hr hlt (marker_eq_false.mpr hm)
  refine ⟨rxbResult b s, exec_eq (.rxb b) s, ?_⟩
  rw [happ]
  refine ⟨rfl, ?_, ?_, fun a ha => memRead_congr (Memory.read_write_other s.payload b ha)⟩
  · rw [BitVec.toNat_add]
    exact Nat.mod_eq_of_lt (by simp; omega)
  · rw [memRead_in_range _ hlt, Memory.read_write_same]

/-- Settles O14: `reading` is 1 already, so starting a frame leaves it. -/
theorem rxbRestartDiscardsThePartialFrame : Obligations.RxbRestartDiscardsThePartialFrame := by
  intro s hr hlt hprev
  have ht : atTrailer s = false := by
    rw [← Bool.not_eq_true, atTrailer_eq_true]
    rintro ⟨-, hp⟩
    simp [hp] at hlt
  rw [exec_rxb_of_start ht (marker_eq_true.mpr ⟨hprev, rfl⟩)]
  simp only [hr]

/-! ### The trailer (40_decoder.md R107, R108) -/

section Validation

variable {p : Config.Params} {b : Byte} {s : State}

/-- What the validation of the trailer `b` writes besides `reading` and `position`: on a pass the sample, on a fail `valid`
and a record; in both `prev_byte` and the history (40_decoder.md R111 to R113). -/
def State.validated (s : State) (b : Byte) : State :=
  if b = sumMod256 (payloadPrefix s 6) then
    { s with
      sampleX := s.payload.read 0, sampleY := s.payload.read 1, sampleValid := true, prevByte := b
      history := s.history ++ [.accepted (.rxb b),
        .published (some (s.payload.read 0)) (some (s.payload.read 1)) true] }
  else
    { s with
      sampleValid := false, prevByte := b
      diagLog := s.diagLog ++ [{ code := 0x01#8, observed := b, expected := sumMod256 (payloadPrefix s 6) }]
      history := s.history ++ [.accepted (.rxb b), .published none none false,
        .diagnosed { code := 0x01#8, observed := b, expected := sumMod256 (payloadPrefix s 6) }] }

theorem State.validated_position (s : State) (b : Byte) : (s.validated b).position = s.position := by
  unfold State.validated
  split <;> rfl

/-- A trailer that is validated ends the frame, or starts one if it completes a marker that is not suppressed. -/
theorem rxbResultWith_of_validate (hp : p.atomicPublish = true) (hv : doValidate p b s = true) :
    rxbResultWith p b s = { s.validated b with
      reading := doStart p b s, position := if doStart p b s then 0#3 else s.position } := by
  have hmid : rxbMiddleWith p b (s.record (.accepted (.rxb b)))
      = trailerResultWith p b (s.record (.accepted (.rxb b))) := if_pos hv
  have hstart : doStart p b (s.record (.accepted (.rxb b))) = doStart p b s := rfl
  rw [rxbResultWith, hmid, hstart, trailerResultWith, payloadPrefix_record, State.validated, publishPass, publishFail,
    if_pos hp, if_pos hp]
  by_cases hb : b = sumMod256 (payloadPrefix s 6)
  · rw [if_pos hb, if_pos hb]
    cases doStart p b s <;> simp [finishByte, startFrame, State.record]
  · rw [if_neg hb, if_neg hb]
    cases doStart p b s <;> simp [finishByte, startFrame, State.record, emit, checksumMismatch]

end Validation

/-- Settles O15: WMFD validates every trailer, and a frame starts exactly if the byte completes a marker. -/
theorem rxbTrailerValidatesTheFrame : Obligations.RxbTrailerValidatesTheFrame := by
  intro s b e hr hp he
  have ht : atTrailer s = true := atTrailer_eq_true.mpr ⟨hr, hp⟩
  have hm : marker s b = decide (s.prevByte = 0x00#8 ∧ b = 0xFF#8) := by
    rw [Bool.eq_iff_iff, marker_eq_true, decide_eq_true_eq]
  rw [exec_rxb_eq_with, rxbResultWith_of_validate rfl ((doValidate_wmfd b s).trans ht), doStart_wmfd, hm, hp,
    State.validated, ← eq_sumMod256_payload he]
  split <;> rfl

/-- Settles O16: the modes differ in whether the trailer is validated (`rxbResultWith_of_validate`,
`rxbResultWith_of_start`) and in whether a frame starts. -/
theorem trailerThatCompletesAMarker : Obligations.TrailerThatCompletesAMarker := by
  intro s e hr hp hprev he validated
  have ht : atTrailer s = true := atTrailer_eq_true.mpr ⟨hr, hp⟩
  have hm : marker s 0xFF#8 = true := marker_eq_true.mpr ⟨hprev, rfl⟩
  have hval : s.validated 0xFF#8 = validated := by
    rw [State.validated, ← eq_sumMod256_payload he]
    simp only [validated, eq_comm]
  have hwmfd : rxbWith Config.wmfd 0xFF#8 s = .next { validated with position := 0#3, reading := true } := by
    rw [rxbWith_eq, rxbResultWith_of_validate rfl ((doValidate_wmfd _ s).trans ht), doStart_wmfd, hm, hval]
    rfl
  refine ⟨hwmfd, hwmfd, ?_, ?_⟩
  · rw [rxbWith_eq, rxbResultWith_of_start (by simp [doValidate, hm]) (by simp [doStart, hm])]
  · have hstart : doStart { Config.wmfd with trailerMarkerMode := .validateOnly } 0xFF#8 s = false := by
      simp [doStart, ht]
    rw [rxbWith_eq, rxbResultWith_of_validate rfl (by simp [doValidate, ht]), hstart,
      ← State.validated_position s 0xFF#8, hval]
    rfl

/-! ### Every RXB ends with its byte in `prev_byte` (40_decoder.md R109) -/

@[simp] theorem finishByte_prevByte (start : Bool) (b : Byte) (s : State) : (finishByte start b s).prevByte = b := by
  cases start <;> rfl

/-- Settles O17: the last thing RXB does is to write `prev_byte`, whatever the parameters. -/
theorem everyRxbLeavesItsByteInPrevByte : Obligations.EveryRxbLeavesItsByteInPrevByte := by
  have hwith : ∀ (p : Config.Params) (b : Byte) (s : State), ∃ t, rxbWith p b s = .next t ∧ t.prevByte = b :=
    fun p b s => ⟨_, rxbWith_eq p b s, finishByte_prevByte _ b _⟩
  exact ⟨hwith Config.wmfd, hwith⟩

end Machine

end Sys2Proof

/-! The mixer (41_mixer.md): the exact rational rules and the integers that MIX computes (R134 to R136), the ranges of the
datapath and its 14 bits (R133, R142), the clamp (R137, R138, R143), and what MIX drives (R130, R140). -/

namespace Sys2Proof

namespace Machine

/-! ### The integers are the exact rationals rounded toward zero (41_mixer.md R134 to R136) -/

theorem intCast_div_natCast_neg_iff (n : Int) {d : Nat} (hd : 0 < d) : (n : ℚ) / d < 0 ↔ n < 0 := by
  rw [div_lt_iff₀ (Nat.cast_pos.mpr hd), zero_mul, Int.cast_lt_zero]

/-- Rounding a quotient of integers toward zero, over the rationals and over the integers. -/
theorem truncRat_intCast_div_natCast (n : Int) {d : Nat} (hd : 0 < d) : truncRat ((n : ℚ) / d) = truncQuot n d := by
  simp only [truncRat, intCast_div_natCast_neg_iff n hd]
  split
  next hneg => rw [Rat.ceil_intCast_div_natCast, truncQuot_of_neg hneg.le]
  next hnonneg => rw [Rat.floor_intCast_div_natCast, truncQuot_of_nonneg (not_lt.mp hnonneg)]

section Rational

variable (m : Motor) (sx sy : Byte)

theorem exactSpeed_eq_scaledSpeed_div : exactSpeed m sx sy = (scaledSpeed m sx sy : ℚ) / (20 : Nat) := by
  cases m <;>
    · simp only [exactSpeed, adjustedY, adjustedX, scaledSpeed, Config.gainY, Config.gainX]
      push_cast
      ring

theorem scaledSpeed_eq_mul_exactSpeed : (scaledSpeed m sx sy : ℚ) = 20 * exactSpeed m sx sy := by
  rw [exactSpeed_eq_scaledSpeed_div, Nat.cast_ofNat, mul_div_cancel₀ _ (by norm_num)]

theorem speedFinal_eq_truncRat : speedFinal m sx sy = truncRat (exactSpeed m sx sy) := by
  rw [exactSpeed_eq_scaledSpeed_div, truncRat_intCast_div_natCast _ (by norm_num)]
  rfl

theorem truncRat_adjustedY : truncRat (adjustedY sy) = truncQuot (6 * centred sy) 5 := by
  have h : adjustedY sy = ((6 * centred sy : Int) : ℚ) / (5 : Nat) := by
    simp only [adjustedY, Config.gainY]
    push_cast
    ring
  rw [h, truncRat_intCast_div_natCast _ (by norm_num), Nat.cast_ofNat]

theorem truncRat_adjustedX : truncRat (adjustedX sx) = truncQuot (3 * centred sx) 4 := by
  have h : adjustedX sx = ((3 * centred sx : Int) : ℚ) / (4 : Nat) := by
    simp only [adjustedX, Config.gainX]
    push_cast
    ring
  rw [h, truncRat_intCast_div_natCast _ (by norm_num), Nat.cast_ofNat]

theorem scaledSpeed_neg_iff : scaledSpeed m sx sy < 0 ↔ exactSpeed m sx sy < 0 := by
  rw [exactSpeed_eq_scaledSpeed_div, intCast_div_natCast_neg_iff _ (by norm_num)]

/-- The floor of the exact magnitude, which exact_sign drives (41_mixer.md R136). -/
theorem floor_abs_exactSpeed : ⌊|exactSpeed m sx sy|⌋.natAbs = (scaledSpeed m sx sy).natAbs / 20 := by
  rw [exactSpeed_eq_scaledSpeed_div, abs_div, Nat.abs_cast, ← Int.cast_abs, Rat.floor_intCast_div_natCast,
    Int.abs_eq_natAbs]
  rfl

end Rational

/-- Settles O27: the scaled integer is twenty times the exact speed, and dividing it by 20 rounds as `truncRat` does. -/
theorem mixTruncatesTheExactRationalSpeed : Obligations.MixTruncatesTheExactRationalSpeed := by
  intro sx sy
  have hcentred (v : Byte) : ((v.toNat : ℚ) - 128) = centred v := by simp [centred]
  simp only [hcentred]
  exact ⟨⟨scaledSpeed_eq_mul_exactSpeed .a sx sy, speedFinal_eq_truncRat .a sx sy⟩,
    ⟨scaledSpeed_eq_mul_exactSpeed .b sx sy, speedFinal_eq_truncRat .b sx sy⟩⟩

/-! ### The ranges of the datapath (41_mixer.md R133, R135, R136, R142) -/

section Ranges

variable (sx sy : Byte)

theorem centred_range (v : Byte) : -128 ≤ centred v ∧ centred v ≤ 127 := by
  have := v.isLt
  simp only [centred, Config.center]
  omega

theorem scaledSpeed_a_range : -4977 ≤ scaledSpeed .a sx sy ∧ scaledSpeed .a sx sy ≤ 4968 := by
  have hx := centred_range sx
  have hy := centred_range sy
  simp only [scaledSpeed]
  omega

theorem scaledSpeed_b_range : -4992 ≤ scaledSpeed .b sx sy ∧ scaledSpeed .b sx sy ≤ 4953 := by
  have hx := centred_range sx
  have hy := centred_range sy
  simp only [scaledSpeed]
  omega

/-- Rounding toward zero is monotone, so the speed's range is that of the scaled speed, divided by 20. -/
theorem speedFinal_range {m : Motor} {sx sy : Byte} {lo hi : Int}
    (h : lo ≤ scaledSpeed m sx sy ∧ scaledSpeed m sx sy ≤ hi) :
    truncQuot lo 20 ≤ speedFinal m sx sy ∧ speedFinal m sx sy ≤ truncQuot hi 20 :=
  ⟨Int.tdiv_le_tdiv (by norm_num) h.1, Int.tdiv_le_tdiv (by norm_num) h.2⟩

theorem speedFinal_a_range : -248 ≤ speedFinal .a sx sy ∧ speedFinal .a sx sy ≤ 248 :=
  speedFinal_range (scaledSpeed_a_range sx sy)

theorem speedFinal_b_range : -249 ≤ speedFinal .b sx sy ∧ speedFinal .b sx sy ≤ 247 :=
  speedFinal_range (scaledSpeed_b_range sx sy)

theorem natAbs_speedFinal_le (m : Motor) : (speedFinal m sx sy).natAbs ≤ 249 := by
  cases m with
  | a =>
    have := speedFinal_a_range sx sy
    omega
  | b =>
    have := speedFinal_b_range sx sy
    omega

end Ranges

/-- Settles O29: the ranges follow from that of the centred axis; the corners of the square of samples reach the bounds. -/
theorem mixDatapathRanges : Obligations.MixDatapathRanges := by
  refine ⟨fun sx sy => ?_, ⟨0x00#8, 0xFF#8, by decide⟩, ⟨0xFF#8, 0x00#8, by decide⟩, ⟨0xFF#8, 0xFF#8, by decide⟩,
    ⟨0x00#8, 0x00#8, by decide⟩⟩
  have hx := centred_range sx
  have hy := centred_range sy
  exact ⟨hy, by omega, by omega, scaledSpeed_a_range sx sy, scaledSpeed_b_range sx sy, speedFinal_a_range sx sy,
    speedFinal_b_range sx sy⟩

/-! ### The 14-bit datapath (41_mixer.md R133, R142) -/

section FourteenBits

/-- Inverting the top bit of a byte subtracts 128 mod 256. -/
theorem xor_0x80_eq_sub (v : Byte) : v ^^^ 0x80#8 = v - 0x80#8 := by
  revert v
  decide

/-- The byte with its top bit inverted, read in two's complement, is the centred axis (41_mixer.md R133). -/
theorem toInt_xor_0x80 (v : Byte) : (v ^^^ 0x80#8).toInt = centred v := by
  have hv := v.isLt
  rw [xor_0x80_eq_sub, BitVec.toInt_eq_toNat_cond, BitVec.toNat_sub]
  simp only [centred, Config.center, BitVec.toNat_ofNat]
  omega

theorem toInt_signExtend_xor_0x80 (v : Byte) : ((v ^^^ 0x80#8).signExtend 14).toInt = centred v := by
  rw [BitVec.toInt_signExtend_of_le (by norm_num), toInt_xor_0x80]

variable (dx dy : BitVec 14)

theorem toInt_gained_sub : (24#14 * dy - 15#14 * dx).toInt = (24 * dy.toInt - 15 * dx.toInt).bmod (2 ^ 14) := by
  simp [BitVec.toInt_sub, BitVec.toInt_mul]

theorem toInt_gained_add : (24#14 * dy + 15#14 * dx).toInt = (24 * dy.toInt + 15 * dx.toInt).bmod (2 ^ 14) := by
  simp [BitVec.toInt_add, BitVec.toInt_mul]

/-- An integer in the range of 14-bit two's complement is not changed by the wrap. -/
theorem bmod_fourteen {n : Int} (hlo : -8192 ≤ n) (hhi : n < 8192) : n.bmod (2 ^ 14) = n :=
  Int.bmod_eq_of_le hlo hhi

end FourteenBits

/-- Settles O30: 14-bit arithmetic is integer arithmetic mod 2^14, and the scaled speeds lie in its signed range. -/
theorem fourteenBitDatapathIsExact : Obligations.FourteenBitDatapathIsExact := by
  intro sx sy dy dx
  have hy : dy.toInt = centred sy := toInt_signExtend_xor_0x80 sy
  have hx : dx.toInt = centred sx := toInt_signExtend_xor_0x80 sx
  have ha := scaledSpeed_a_range sx sy
  have hb := scaledSpeed_b_range sx sy
  refine ⟨hy, hx, ?_, ?_⟩
  · rw [toInt_gained_sub, hy, hx]
    exact bmod_fourteen (n := scaledSpeed .a sx sy) (by omega) (by omega)
  · rw [toInt_gained_add, hy, hx]
    exact bmod_fourteen (n := scaledSpeed .b sx sy) (by omega) (by omega)

/-! ### The clamp and the direction (41_mixer.md R137, R138, R143) -/

theorem dirOf_toBit_of_neg {sp : Int} (h : sp < 0) : (dirOf sp).toBit = 1#1 := by
  rw [dirOf_eq_reverse.mpr h]
  rfl

theorem dirOf_toBit_of_nonneg {sp : Int} (h : 0 ≤ sp) : (dirOf sp).toBit = 0#1 := by
  rw [dirOf, if_neg (by omega)]
  rfl

/-- Settles O31: the laws of `magOf` and `dirOf`, and the bound of the speeds. -/
theorem clampAndDirectionOfASpeed : Obligations.ClampAndDirectionOfASpeed := by
  refine ⟨fun sp => ⟨magOf_toNat sp, magOf_le sp, dirOf_toBit_of_neg, dirOf_toBit_of_nonneg⟩, fun m sx sy => ?_⟩
  have hle := natAbs_speedFinal_le sx sy m
  exact ⟨hle, by omega⟩

/-- The duty 99 is reached exactly from magnitude 99 on. -/
theorem magOf_eq_99 {sp : Int} : magOf sp = 99#7 ↔ 99 ≤ sp.natAbs := by
  rw [← BitVec.toNat_inj, magOf_toNat]
  exact min_eq_left_iff

/-- 99 * 20 = 1980: where a truncated speed reaches the clamp (41_mixer.md R143). -/
theorem magOf_speedFinal_eq_99 (m : Motor) (sx sy : Byte) :
    magOf (speedFinal m sx sy) = 99#7 ↔ 1980 ≤ (scaledSpeed m sx sy).natAbs := by
  have hq : (speedFinal m sx sy).natAbs = (scaledSpeed m sx sy).natAbs / 20 := natAbs_truncQuot _ 20
  rw [magOf_eq_99, hq]
  omega

/-- Settles O32: a valid MIX drives the clamped magnitudes of the two speeds. -/
theorem dutySaturatesExactlyFrom1980 : Obligations.DutySaturatesExactlyFrom1980 := by
  intro s hv
  refine ⟨mixResult s, execMix_eq s, ?_⟩
  rw [mixResult_of_valid hv]
  exact ⟨magOf_speedFinal_eq_99 .a _ _, magOf_speedFinal_eq_99 .b _ _⟩

/-! ### What MIX drives (41_mixer.md R130, R132, R140) -/

/-- Settles O26: the two cases of MIX, with the speed's sign as direction and its clamped magnitude as duty. -/
theorem mixDrivesBothMotors : Obligations.MixDrivesBothMotors := by
  intro s
  refine ⟨fun hv => ?_, fun hv => ?_⟩
  · exact (execMix_eq s).trans (congrArg _ (mixResult_of_invalid hv))
  · exact ⟨_, _, _, _, (execMix_eq s).trans (congrArg _ (mixResult_of_valid hv)),
      dirOf_eq_reverse, magOf_toNat _, dirOf_eq_reverse, magOf_toNat _⟩

/-- With a valid snapshot the outputs before the MIX do not matter. -/
theorem mixOutputs_of_valid {q : Snapshot} (h : q.valid = true) (o o' : Outputs) : mixOutputs q o = mixOutputs q o' := by
  rw [mixOutputs, if_pos h, mixOutputs, if_pos h]

/-- Settles O33: what a MIX leaves in the outputs is `mixOutputs` of the snapshot, and the two snapshots are equal. -/
theorem drivenValuesDependOnTheSampleAlone : Obligations.DrivenValuesDependOnTheSampleAlone := by
  intro s s' hv hv' hx hy
  have hq : readSample s = readSample s' := by rw [readSample, readSample, hx, hy, hv, hv']
  refine ⟨mixResult s, mixResult s', execMix_eq s, execMix_eq s', ?_⟩
  rw [mixResult_outputs, mixResult_outputs, ← hq]
  exact mixOutputs_of_valid hv _ _

/-! ### MIX under the other quantisations (41_mixer.md R136) -/

section Quantisations

variable (p : Config.Params) {s : State}

theorem mixResultWith_of_invalid (h : s.sampleValid = false) : mixResultWith p s =
    { s with history := s.history ++ [.accepted .mix, .snapshot s.sampleX s.sampleY false] } := by
  rw [mixResultWith, mixFrom_of_invalid _ _ (by simp [readSample, h])]
  simp [State.record, h]

theorem mixResultWith_of_valid (h : s.sampleValid = true) : mixResultWith p s = { s with
      dirA := driveDir p.speedQuant .a s.sampleX s.sampleY, dutyA := driveMag p.speedQuant .a s.sampleX s.sampleY
      dirB := driveDir p.speedQuant .b s.sampleX s.sampleY, dutyB := driveMag p.speedQuant .b s.sampleX s.sampleY
      history := s.history ++ [.accepted .mix, .snapshot s.sampleX s.sampleY true,
        .drove .a (driveDir p.speedQuant .a s.sampleX s.sampleY) (driveMag p.speedQuant .a s.sampleX s.sampleY),
        .drove .b (driveDir p.speedQuant .b s.sampleX s.sampleY) (driveMag p.speedQuant .b s.sampleX s.sampleY)] } := by
  rw [mixResultWith, mixFrom_of_valid _ _ (show (readSample s).valid = true from h)]
  simp [drive, State.record, readSample, h]

variable (m : Motor) (sx sy : Byte)

theorem driveDir_truncAxes_eq_reverse : driveDir .truncAxes m sx sy = .reverse ↔ speedAxes m sx sy < 0 :=
  dirOf_eq_reverse

theorem driveMag_truncAxes_toNat : (driveMag .truncAxes m sx sy).toNat = min 99 (speedAxes m sx sy).natAbs :=
  magOf_toNat _

theorem driveDir_exactSign_eq_reverse : driveDir .exactSign m sx sy = .reverse ↔ exactSpeed m sx sy < 0 :=
  dirOf_eq_reverse.trans (scaledSpeed_neg_iff m sx sy)

theorem driveMag_exactSign_toNat :
    (driveMag .exactSign m sx sy).toNat = min 99 ⌊|exactSpeed m sx sy|⌋.natAbs := by
  rw [floor_abs_exactSpeed]
  simp only [driveMag, BitVec.toNat_ofNat, Config.dutyMax]
  omega

end Quantisations

/-- Settles O28: MIX drives `driveDir` and `driveMag` of the block's quantisation, and these follow the rational rules. -/
theorem otherQuantisationsFollowTheirRules : Obligations.OtherQuantisationsFollowTheirRules := by
  intro p s axes driven
  have haxes (m : Motor) : axes m = speedAxes m s.sampleX s.sampleY := by
    cases m <;> simp only [axes, truncRat_adjustedY, truncRat_adjustedX, speedAxes]
  refine ⟨mixResultWith p s, rfl, mixResultWith_of_invalid p, fun hv => ?_⟩
  have hdriven (m : Motor) : driven (mixResultWith p s) m
      = (driveDir p.speedQuant m s.sampleX s.sampleY, driveMag p.speedQuant m s.sampleX s.sampleY) := by
    rw [mixResultWith_of_valid p hv]
    cases m <;> rfl
  refine ⟨by rw [mixResultWith_of_valid p hv], fun m => ?_⟩
  rw [hdriven, haxes]
  refine ⟨fun hq => ?_, fun hq => ?_⟩
  · rw [hq]
    exact ⟨driveDir_truncAxes_eq_reverse m _ _, driveMag_truncAxes_toNat m _ _⟩
  · rw [hq]
    exact ⟨driveDir_exactSign_eq_reverse m _ _, driveMag_exactSign_toNat m _ _⟩

end Machine

end Sys2Proof

/-! Reset and hazards (70_reset_and_hazards.md): what RST and power-on reset leave (R190, R191), and the changes of a payload
that the checksum does not see (R197). -/

namespace Sys2Proof

namespace Machine

/-! ### What the checksum does not see (70_reset_and_hazards.md R197) -/

section Checksum

variable {bs cs : List Byte}

/-- Reducing once at the end is adding in the bytes themselves, so the laws of addition there hold of the checksum. -/
theorem sumMod256_eq_sum (bs : List Byte) : sumMod256 bs = bs.sum := by
  apply BitVec.eq_of_toNat_eq
  induction bs with
  | nil => rfl
  | cons b bs ih =>
    rw [List.sum_cons, BitVec.toNat_add, ← ih]
    simp [sumMod256, Config.checksumMod]

theorem sumMod256_perm (h : bs.Perm cs) : sumMod256 bs = sumMod256 cs := by
  rw [sumMod256_eq_sum, sumMod256_eq_sum, h.sum_eq]

theorem sumMod256_compensated (pre mid post : List Byte) (a b k : Byte) :
    sumMod256 (pre ++ (a + k) :: mid ++ (b - k) :: post) = sumMod256 (pre ++ a :: mid ++ b :: post) := by
  simp only [sumMod256_eq_sum, List.sum_append, List.sum_cons]
  ring

theorem sumMod256_eq_of_sum_eq_add {n : Nat}
    (h : (cs.map BitVec.toNat).sum = (bs.map BitVec.toNat).sum + 256 * n) : sumMod256 bs = sumMod256 cs := by
  rw [sumMod256, sumMod256, h, Config.checksumMod, Nat.add_mul_mod_self_left]

end Checksum

/-- Settles O51: addition of bytes is commutative, `k` and `-k` cancel, and a multiple of 256 is lost in the reduction. -/
theorem checksumMissesReorderingAndCompensation : Obligations.ChecksumMissesReorderingAndCompensation :=
  ⟨fun _ _ => sumMod256_perm, sumMod256_compensated, fun _ _ ⟨_, h⟩ => sumMod256_eq_of_sum_eq_add h⟩

/-! ### RST and power-on reset (70_reset_and_hazards.md R190, R191) -/

/-- Settles O36: the table does not speak of the elements in which RST's state may differ from the power-on state. -/
theorem resetStateIsAsListed : Obligations.ResetStateIsAsListed := by
  unfold Obligations.ResetStateIsAsListed
  intro listed
  have hlisted (d : List DiagRecord) (r : Bool) (es : List Event) (ws : List OpWord) :
      listed { State.reset with diagLog := d, refused := r, history := es, input := ws } :=
    ⟨rfl, rfl, rfl, fun _ ha => memRead_in_range _ ha, rfl, rfl, rfl, rfl, rfl, rfl, rfl, rfl, rfl⟩
  refine ⟨⟨hlisted [] false [] [], rfl, rfl⟩, fun s => ⟨rstResult s, execRst_eq s, ?_, rfl, rfl⟩⟩
  rw [rstResult_eq]
  exact hlisted _ _ _ _

/-- Power-on reset writes every element, so only the model's bookkeeping of the state before is left. -/
theorem powerOn_eq (s : State) :
    powerOn Config.wmfd s = { State.reset with history := s.history, input := s.input } := rfl

/-- Settles O37: RST and power-on reset each leave the power-on state, but for the elements that they keep or extend. -/
theorem rstRestoresTheResetElements : Obligations.RstRestoresTheResetElements :=
  fun s => ⟨rstResult s, execRst_eq s, rstResult_eq s, powerOn_eq s⟩

end Machine

end Sys2Proof
